-- ==== Sys2Proof/Word.lean ====
section
/-! DEFINITION. The plain words of the model: bytes, indices of ports, feeds and lanes, tags and feed sets. -/

namespace Sys2Proof

/-- A byte of a link or of a payload (section 11.2). -/
abbrev Byte := BitVec 8

/-- A contribution port, CP0 to CP12 (00_scope.md, Names). -/
abbrev PortId := Fin 13

/-- A feed, FD0 to FD7 (00_scope.md, Names). -/
abbrev FeedId := Fin 8

/-- A lane of the splice schedule, L0 to L3 (00_scope.md, Names). -/
abbrev LaneId := Fin 4

/-- A tag of a carriage cell, 0 to 4095 (00_scope.md, The carriage cell). -/
abbrev Tag := BitVec 12

/-- A feed set as its 8-position mask, bit n for FDn (R179). -/
abbrev FeedSet := BitVec 8

end Sys2Proof
end

