-- ==== Sys2Proof/Config.lean ====
section
/-! DEFINITION. The numbers that the spec fixes for the part (00_scope.md, Principal numbers, and the rules cited). -/

namespace Sys2Proof.Config

/-- One station second in ticks (R2). -/
def ticksPerSecond : BitVec 48 := 16384000

/-- Half of the window of an expected second mark (R5), the spacing tolerance (R6) and the shortest second (R3). -/
def markWindow : Nat := 64

/-- Cell slots in the store (R38). -/
def cellSlots : Nat := 16384

/-- Stream records in the stream table (R40). -/
def streamRecords : Nat := 128

/-- Entries of a map bank (chapter 4). -/
def mapEntries : Nat := 64

/-- Splice records in schedule memory (section 6.1). -/
def spliceRecords : Nat := 1024

/-- Records a lane may leave at once in one walk (R112). -/
def loopGuard : Nat := 16

/-- Places of the intake queue (R148). -/
def intakePlaces : Nat := 8

/-- Places of the response queue (R160). -/
def responsePlaces : Nat := 16

/-- Places of the report queue (R162). -/
def reportPlaces : Nat := 32

/-- The largest value of a live counter and of DropCount (R164, R162). -/
def counterMax : Nat := 65535

/-- Cycle boundaries at which a commit is considered (R71). -/
def commitLimit : Nat := 64

/-- The window of a revert, in cycle boundaries (R138). -/
def revertWindow : Nat := 16

/-- Correct headers that end a hunt (R22). -/
def goodHeaders : Nat := 6

/-- Bad headers that end alignment (R23). -/
def badHeaders : Nat := 4

/-- Mismatches up to which a cell passes in SEARCH (R175). -/
def searchLimit : Nat := 4

/-- Mismatches up to which a cell is good in LOCKED (R176). -/
def lockedLimit : Nat := 64

/-- Bytes of a carriage cell (section 11). -/
def cellBytes : Nat := 160

/-- Bytes of a payload (section 11). -/
def payloadBytes : Nat := 156

/-- Payload bits of a pattern cell (R172). -/
def patternBits : Nat := 1248

/-- The largest programme tag (R24). -/
def maxProgrammeTag : Nat := 4093

/-- The control tag (00_scope.md, Terms). -/
def controlTag : Tag := 4094

/-- The fill tag (00_scope.md, Terms). -/
def fillTag : Tag := 4095

/-- Ticks in one unit of LossTimeout (section 2.2). -/
def lossUnit : Nat := 1024

end Sys2Proof.Config
end

