-- ==== Sys2Proof/Syntax.lean ====
section
/-! DEFINITION. The commands of the part: one constructor of Instr for each row of spec/opcode_table.json.
A request's operands are its RequestTag and the fields of its record at the widths of section 11.3, so that a value out
of its range is a term too and is judged by the rule that owns the request. -/

namespace Sys2Proof

/-- Whether a boundary command takes every party of the boundary that is still due, or the listed parties only
(log entry 3: the order of events of one instant is the environment's). -/
inductive Pace where
  | whole
  | listed
  deriving DecidableEq, Repr

/-- How a second boundary is taken (R2): whole, which is its epoch, then every party of the epoch's cycle boundary, then the
counter transfer it calls for; or with the parties left due, and the transfer made before the epoch or right after it (log entry
3: the rules give no order of a transfer and an epoch at one boundary). -/
inductive SecondPace where
  | whole
  | transferFirst
  | epochFirst
  deriving DecidableEq, Repr

/-- A party that takes a slot boundary (R8): a feed composer or the MLT. -/
inductive SlotPart where
  | feed (f : FeedId)
  | monitor
  deriving DecidableEq, Repr

/-- A party that takes a cycle boundary (R9): a feed's change of state, the window or the revert countdown of one live
entry, a lane, or the pending commit that lists a feed. -/
inductive CyclePart where
  | feed (f : FeedId)
  | window (f : FeedId) (entry : Nat)
  | revert (f : FeedId) (entry : Nat)
  | lane (l : LaneId)
  | commit (f : FeedId)
  deriving DecidableEq, Repr

/-- Parameters of SET-PORT (section 11.3, code 20h). -/
structure PortParams where
  port : BitVec 8
  mask : BitVec 16
  enable : BitVec 8
  quota : BitVec 16
  maxAge : BitVec 24
  nomDelay : BitVec 24
  jitLimit : BitVec 24
  winLen : BitVec 16
  winMin : BitVec 8
  lossTimeout : BitVec 16
  checkTag : BitVec 16
  deriving DecidableEq, Repr

/-- Parameters of WRITE-MAP-ENTRY (section 11.3, code 30h). -/
structure MapParams where
  feeds : BitVec 8
  index : BitVec 8
  outTag : BitVec 16
  homeSrc : BitVec 16
  fallSrc : BitVec 16
  share : BitVec 24
  autoRevert : BitVec 8
  revertDelay : BitVec 8
  deriving DecidableEq, Repr

/-- Parameters of WRITE-SPLICE-RECORD (section 11.3, code 50h). -/
structure SpliceParams where
  index : BitVec 16
  nextRec : BitVec 16
  carries : BitVec 8
  goesOn : BitVec 8
  action : BitVec 8
  feeds : BitVec 8
  outTag : BitVec 16
  newSrc : BitVec 16
  newShare : BitVec 24
  dueCycle : BitVec 16
  noticeLead : BitVec 8
  window : BitVec 8
  onMiss : BitVec 8
  deriving DecidableEq, Repr

/-- Parameters of SET-REPORTING (section 11.3, code 60h). -/
structure ReportingParams where
  enables : BitVec 16
  portEdge : BitVec 8
  timebaseEdge : BitVec 8
  patternEdge : BitVec 8
  counterMode : BitVec 8
  period : BitVec 16
  deriving DecidableEq, Repr

/-- Parameters of SET-GROUPS (section 11.3, code 70h). -/
structure GroupParams where
  g0 : BitVec 16
  g1 : BitVec 16
  g2 : BitVec 16
  g3 : BitVec 16
  deriving DecidableEq, Repr

/-- The commands: one constructor for each row of spec/opcode_table.json, in the table's order. -/
inductive Instr where
  /-- R17: power is applied with these values at the twelve strap pins. -/
  | powerUp (straps : BitVec 12)
  /-- R8. -/
  | slotBoundary (order : List SlotPart) (pace : Pace)
  /-- R8. -/
  | pendingSlotPeriodTaken
  /-- R9. -/
  | cycleBoundary (order : List CyclePart) (pace : Pace)
  /-- R12. -/
  | pendingCycleLengthTaken
  /-- R2. -/
  | secondBoundary (pace : SecondPace)
  /-- R15. -/
  | epoch (order : List CyclePart) (pace : Pace)
  /-- R3. -/
  | secondMark (pace : SecondPace)
  /-- R5. -/
  | markWindowExpiry
  /-- R21: the 160 bytes of the unit that completes at the port. -/
  | cellArrival (port : PortId) (unit : List Byte)
  /-- R30. -/
  | lossDeadlineExpiry (port : PortId)
  /-- R150. -/
  | heldResponsePlaced
  /-- R77. -/
  | commitResponsePlaced
  /-- R121. -/
  | outPoint (feed : FeedId) (entry : Nat)
  /-- R122. -/
  | inPoint (feed : FeedId) (entry : Nat)
  /-- R115. -/
  | notice (lane : LaneId)
  /-- R117. -/
  | arming (lane : LaneId)
  /-- R123. -/
  | windowExpiry (feed : FeedId) (entry : Nat)
  /-- R138. -/
  | revertStart (feed : FeedId) (entry : Nat)
  /-- R74: the pending commit that lists the feed. -/
  | commitSwap (feed : FeedId)
  /-- R71: the pending commit that lists the feed. -/
  | commitTimeout (feed : FeedId)
  /-- R82. -/
  | feedBecomesRunning (feed : FeedId)
  /-- R84. -/
  | feedEntersTest (feed : FeedId)
  /-- R85. -/
  | feedLeavesTest (feed : FeedId)
  /-- R166. -/
  | autoCounterTransfer
  /-- R151: the 156 payload bytes of the CONTROL cell that carries the record. -/
  | malformedRequest (record : List Byte)
  /-- R10. -/
  | setSlotPeriod (tag : BitVec 16) (int frac : BitVec 16)
  /-- R11. -/
  | setCycleLength (tag : BitVec 16) (length : BitVec 16)
  /-- R14. -/
  | setEpoch (tag : BitVec 16) (value : BitVec 16)
  /-- R16. -/
  | readTimebase (tag : BitVec 16)
  /-- R18. -/
  | setPort (tag : BitVec 16) (params : PortParams)
  /-- R34. -/
  | readPort (tag : BitVec 16) (port : BitVec 8)
  /-- R64. -/
  | writeMapEntry (tag : BitVec 16) (params : MapParams)
  /-- R65. -/
  | clearMapEntry (tag : BitVec 16) (feeds index : BitVec 8)
  /-- R68. -/
  | commitMap (tag : BitVec 16) (feeds : BitVec 8)
  /-- R67. -/
  | readMapEntry (tag : BitVec 16) (feed bank index : BitVec 8)
  /-- R81. -/
  | setFeedRunning (tag : BitVec 16) (feed : BitVec 8) (testTag : BitVec 16)
  /-- R83. -/
  | setFeedDisabled (tag : BitVec 16) (feed : BitVec 8) (testTag : BitVec 16)
  /-- R84. -/
  | setFeedTest (tag : BitVec 16) (feed : BitVec 8) (testTag : BitVec 16)
  /-- R101. -/
  | readFeed (tag : BitVec 16) (feed first : BitVec 8)
  /-- R174. -/
  | injectPatternError (tag : BitVec 16) (feed : BitVec 8)
  /-- R106. -/
  | writeSpliceRecord (tag : BitVec 16) (params : SpliceParams)
  /-- R110. -/
  | readSpliceRecord (tag : BitVec 16) (index : BitVec 16)
  /-- R108. -/
  | startLane (tag : BitVec 16) (lane : BitVec 8) (head : BitVec 16)
  /-- R107. -/
  | stopLane (tag : BitVec 16) (lane : BitVec 8)
  /-- R109. -/
  | readLane (tag : BitVec 16) (lane : BitVec 8)
  /-- R163. -/
  | setReporting (tag : BitVec 16) (params : ReportingParams)
  /-- R167. -/
  | latchCounters (tag : BitVec 16)
  /-- R168. -/
  | readCounters (tag : BitVec 16) (group : BitVec 8)
  /-- R145. -/
  | setGroups (tag : BitVec 16) (params : GroupParams)
  /-- R154. -/
  | softReset (tag : BitVec 16)
  /-- R1. -/
  | stationTick
  deriving DecidableEq, Repr

end Sys2Proof
end

