-- ==== Sys2Proof/Decode.lean ====
section
/-! DEFINITION. The command that a table word spells. spec/opcode_table.json gives no row any bits (R180 to R181 lay out the
request records, which CELL_ARRIVAL carries), so no word spells a command (log entry 28). -/

namespace Sys2Proof

/-- The command that a word of the opcode table spells: none, since the table gives no row any bits. -/
def decodeTableWord (_nbits _w : Nat) : Option Instr := none

end Sys2Proof
end

