-- ==== Sys2Proof/Machine/State.lean ====
section
/-! DEFINITION. The state of the part as plain data, block by block in the spec's names, and its value at power-up. -/

namespace Sys2Proof.Machine

/-! ### Cells and formats -/

/-- Kind of a carriage cell, coded by position (R178). -/
inductive Kind where
  | programme
  | fill
  | control
  | address
  deriving DecidableEq, Repr

/-- The header of a carriage cell (R178). -/
structure Header where
  kind : Kind
  tag : Tag
  boundary : Bool
  marked : Bool
  disc : Bool
  cont : BitVec 4
  check : Byte
  deriving DecidableEq, Repr

/-- A carriage cell: header and 156 payload bytes (section 11). -/
structure Cell where
  hdr : Header
  payload : List Byte
  deriving DecidableEq, Repr

/-- A source: a stream named by port and tag (00_scope.md, Names). -/
structure Source where
  port : PortId
  tag : Tag
  deriving DecidableEq, Repr

/-! ### Timebase (chapter 1) -/

/-- Standing of the second boundaries against the station's marks (section 1.2). -/
inductive RefState where
  | free
  | locked
  | holdover
  deriving DecidableEq, Repr

/-- The state of the TBU (table before R1). -/
structure Tbu where
  tickCount : BitVec 48
  secNo : BitVec 32
  refState : RefState
  nextSecond : BitVec 48
  lastSecond : Option (BitVec 48)
  expMark : Option (BitVec 48)
  relockRun : Nat
  lastMark : Option (BitVec 48)
  slotInt : Nat
  slotFrac : Nat
  pendSlotPeriod : Option (Nat × Nat)
  slotPos : BitVec 64
  slotIndex : Nat
  cycleLen : Nat
  pendCycleLen : Option Nat
  cycleNo : BitVec 16
  pendEpoch : Option (BitVec 16)
  deriving DecidableEq, Repr

/-! ### Contribution ports (chapters 2 and 10) -/

/-- Standing of a contribution (section 2.1). -/
inductive PortState where
  | down
  | hunt
  | live
  | absent
  | lost
  deriving DecidableEq, Repr

/-- Standing of a port's pattern checker (chapter 10). -/
inductive ChkState where
  | search
  | locked
  deriving DecidableEq, Repr

/-- The settings of a port (section 2.2). -/
structure Settings where
  enable : Bool
  quota : Nat
  maxAge : Nat
  nomDelay : Nat
  jitLimit : Nat
  winLen : Nat
  winMin : Nat
  lossTimeout : Nat
  checkTag : Option Tag
  deriving DecidableEq, Repr

/-- The state of a port (section 2.1) and of its pattern checker (chapter 10).
align holds the bytes with which the next unit begins after the alignment slipped one byte (R22, R23): the 159 bytes of
the failed unit from its second byte, or none where the next unit begins at the next byte received. -/
structure Port where
  state : PortState
  goodRun : Nat
  badRun : Nat
  winCount : Nat
  winProg : Nat
  thinRun : Nat
  fullRun : Nat
  lossDeadline : Option (BitVec 48)
  align : List Byte
  settings : Settings
  chkState : ChkState
  chkRun : Nat
  chkGen : BitVec 17
  deriving DecidableEq, Repr

/-! ### Counters (R33, R100, section 9.3) -/

/-- The five counters of a port, in the order of R33. -/
inductive PortCounter where
  | hdrErr
  | contErr
  | overflow
  | stale
  | patternErr
  deriving DecidableEq, Repr

/-- The two counters of a feed, in the order of R168. -/
inductive FeedCounter where
  | fill
  | clamp
  deriving DecidableEq, Repr

/-- One of the part's 81 counters. -/
inductive CounterId where
  | port (p : PortId) (c : PortCounter)
  | feed (f : FeedId) (c : FeedCounter)
  deriving DecidableEq, Repr

/-- Live counters, held counters and saturation marks, in the order of READ-COUNTERS (R168). -/
structure Counters where
  live : Vector Nat 81
  held : Vector Nat 81
  satMark : Vector Bool 81
  deriving DecidableEq, Repr

/-! ### Cell store and stream table (chapter 3) -/

/-- A stored cell's record (section 3.1). -/
structure CellRecord where
  hdr : Header
  payload : List Byte
  arriveTick : BitVec 32
  port : PortId
  stream : Nat
  next : Option Nat
  holders : FeedSet
  deriving DecidableEq, Repr

/-- The free pool, a stack of slot indices (R38): the slots of freed lie on top, first element topmost, and beneath them
lie the slots fresh, fresh + 1, ... 16383 in order (log entry 22). -/
structure FreePool where
  freed : List Nat
  fresh : Nat
  deriving DecidableEq, Repr

/-- A stream record (section 3.2). It is OPEN while subs is not empty (R40). -/
structure StreamRecord where
  src : Source
  subs : FeedSet
  waiting : FeedSet
  head : Option Nat
  tail : Option Nat
  count : Nat
  nextCont : Option (BitVec 4)
  deriving DecidableEq, Repr

/-- The value of an UNUSED stream record (R40, R58); its source has no meaning. -/
def StreamRecord.unused : StreamRecord :=
  { src := { port := 0, tag := 0 }, subs := 0, waiting := 0, head := none, tail := none, count := 0, nextCont := none }

/-- The CST and the STT: stored cells by slot, the free pool, Occ and Cong by port, stream records by index. A slot that
is not listed holds no cell; a stream record that is not listed is UNUSED. -/
structure Store where
  cells : List (Nat × CellRecord)
  pool : FreePool
  occ : Vector Nat 13
  cong : Vector Bool 13
  streams : List (Nat × StreamRecord)
  deriving DecidableEq, Repr

/-! ### Service maps (chapters 4 and 7) -/

/-- The two map banks of a feed. -/
inductive Bank where
  | a
  | b
  deriving DecidableEq, Repr

/-- Entry states (R61). -/
inductive EState where
  | vacant
  | onAir
  | outWait
  | inWait
  | fallback
  deriving DecidableEq, Repr

/-- What a window's expiry does (section 4.1). -/
inductive OnMiss where
  | force
  | cancel
  deriving DecidableEq, Repr

/-- The owner of the splice in progress (section 4.1). -/
inductive Owner where
  | lane (l : LaneId) (record : Nat)
  | revert
  deriving DecidableEq, Repr

/-- Configuration fields of a map entry (section 4.1). -/
structure MapEntry where
  used : Bool
  outTag : Tag
  homeSrc : Source
  fallSrc : Option Source
  share : Nat
  autoRevert : Bool
  revertDelay : Nat
  deriving DecidableEq, Repr

/-- A cleared entry (R65, R78). -/
def MapEntry.unused : MapEntry :=
  { used := false, outTag := 0, homeSrc := { port := 0, tag := 0 }, fallSrc := none, share := 1, autoRevert := false,
    revertDelay := 1 }

/-- Live fields of an entry of the active bank (section 4.1). -/
structure Live where
  estate : EState
  curSrc : Option Source
  newSrc : Option Source
  prevSrc : Option Source
  protSrc : Option Source
  credit : Int
  outCont : BitVec 4
  discPending : Bool
  windowLeft : Nat
  onMiss : Option OnMiss
  owner : Option Owner
  revertLeft : Option Nat
  deriving DecidableEq, Repr

/-- The VACANT values (R60). -/
def Live.vacant : Live :=
  { estate := .vacant, curSrc := none, newSrc := none, prevSrc := none, protSrc := none, credit := 0, outCont := 0,
    discPending := false, windowLeft := 0, onMiss := none, owner := none, revertLeft := none }

/-- The rest values of an entry with this HomeSrc (R62). -/
def Live.rest (home : Source) : Live :=
  { Live.vacant with estate := .onAir, curSrc := some home }

/-- The maps of one feed. An entry that is not listed in a bank is unused, one not listed in live is VACANT. -/
structure FeedMap where
  activeBank : Bank
  bankA : List (Nat × MapEntry)
  bankB : List (Nat × MapEntry)
  live : List (Nat × Live)
  locked : Bool
  deriving DecidableEq, Repr

/-- A pending commit (R70). due is the model's own: the commit has not yet been judged at a cycle boundary that was handed
to it (log entry 3). -/
structure Commit where
  feeds : FeedSet
  tag : BitVec 16
  considered : Nat
  due : Bool
  deriving DecidableEq, Repr

/-! ### Feed composers (chapters 5 and 10) -/

/-- Standing of a feed (section 5.1). -/
inductive FeedState where
  | disabled
  | starting
  | running
  | test
  deriving DecidableEq, Repr

/-- A change of feed state that waits for a boundary (section 5.1). -/
inductive PendMode where
  | none
  | test
  | running
  deriving DecidableEq, Repr

/-- The state of a feed composer (section 5.1, R171). sent is the model's own: the cell the feed link carried at the latest
slot boundary (log entry 7). -/
structure Feed where
  state : FeedState
  pendMode : PendMode
  testTag : Tag
  fillCont : BitVec 4
  gen : BitVec 17
  patCont : BitVec 4
  injectPending : Bool
  sent : Option Cell
  deriving DecidableEq, Repr

/-! ### Splice schedule (chapter 6) -/

/-- Carries of a splice record (section 6.1). -/
inductive Carries where
  | action
  | link
  deriving DecidableEq, Repr

/-- Action of a splice record (section 6.1). -/
inductive Action where
  | switch
  | returnHome
  | share
  deriving DecidableEq, Repr

/-- Progress of a splice record (R104). -/
inductive RecStatus where
  | pending
  | noticed
  | armed
  | complete
  | expired
  | abandoned
  deriving DecidableEq, Repr

/-- Outcomes of a target feed, in the order of the table of R105. -/
inductive SpliceResult where
  | started
  | done
  | forced
  | cancelled
  | absent
  | abandoned
  | noEntry
  | busy
  | noRoom
  | duplicate
  | unchanged
  | oversub
  deriving DecidableEq, Repr

/-- Notice marks (R105). -/
inductive Mark where
  | held
  | noRoom
  | stopped
  deriving DecidableEq, Repr

/-- A splice record (section 6.1). goesOn is the spec's flag Continue. -/
structure SpliceRecord where
  nextRec : Nat
  carries : Carries
  goesOn : Bool
  action : Action
  feeds : FeedSet
  outTag : Tag
  newSrc : Source
  newShare : Nat
  dueCycle : BitVec 16
  noticeLead : Nat
  window : Nat
  onMiss : OnMiss
  status : RecStatus
  outcomes : List (FeedId × SpliceResult)
  marks : List (FeedId × Mark)
  deriving DecidableEq, Repr

/-- A splice record at power-up (R130). -/
def SpliceRecord.blank : SpliceRecord :=
  { nextRec := 0, carries := .link, goesOn := false, action := .switch, feeds := 0, outTag := 0,
    newSrc := { port := 0, tag := 0 }, newShare := 1, dueCycle := 0, noticeLead := 0, window := 1, onMiss := .force,
    status := .pending, outcomes := [], marks := [] }

/-- Standing of a lane (section 6.2). -/
inductive LaneState where
  | stopped
  | waiting
  | noticed
  | armed
  | parked
  | stopping
  deriving DecidableEq, Repr

/-- A lane (section 6.2). -/
structure Lane where
  state : LaneState
  curRec : Nat
  linkRun : Nat
  deriving DecidableEq, Repr

/-- Schedule memory and the lanes. A record that is not listed holds its power-up value. -/
structure Ssu where
  records : List (Nat × SpliceRecord)
  lanes : Vector Lane 4
  deriving DecidableEq, Repr

/-! ### Requests, responses and reports (chapters 8, 9 and 11) -/

/-- Result codes, in the order of the table of 00_scope.md. -/
inductive Result where
  | ok
  | clamped
  | malformed
  | range
  | state
  | locked
  | oversubscribed
  | duplicate
  | noRoom
  | inUse
  | overrun
  | timeout
  deriving DecidableEq, Repr

/-- A request record, read at the widths of section 11.3; malformed is a record of unknown kind or wrong length (R181). -/
inductive Request where
  | setSlotPeriod (int frac : BitVec 16)
  | setCycleLength (length : BitVec 16)
  | setEpoch (value : BitVec 16)
  | readTimebase
  | setPort (params : PortParams)
  | readPort (port : BitVec 8)
  | writeMapEntry (params : MapParams)
  | clearMapEntry (feeds index : BitVec 8)
  | commitMap (feeds : BitVec 8)
  | readMapEntry (feed bank index : BitVec 8)
  | setFeed (feed mode : BitVec 8) (testTag : BitVec 16)
  | readFeed (feed first : BitVec 8)
  | injectPatternError (feed : BitVec 8)
  | writeSpliceRecord (params : SpliceParams)
  | readSpliceRecord (index : BitVec 16)
  | startLane (lane : BitVec 8) (head : BitVec 16)
  | stopLane (lane : BitVec 8)
  | readLane (lane : BitVec 8)
  | setReporting (params : ReportingParams)
  | latchCounters
  | readCounters (group : BitVec 8)
  | setGroups (params : GroupParams)
  | softReset
  | malformed
  deriving DecidableEq, Repr

/-- A request as the CRX takes it: its RequestTag, the kind code as it stands in the record, and the record (R147). -/
structure Taken where
  tag : BitVec 16
  kind : Byte
  request : Request
  deriving DecidableEq, Repr

/-- A response (section 8.5): its contents are the payload bytes from byte 8 on (R182, R183). -/
structure Response where
  tag : BitVec 16
  kind : Byte
  result : Result
  contents : List Byte
  deriving DecidableEq, Repr

/-- Why a lane faulted (R112, R113). -/
inductive LaneCause where
  | loop
  | held
  deriving DecidableEq, Repr

/-- Why a fallback is blocked (R132, R134). -/
inductive BlockReason where
  | noFallSrc
  | samePort
  | duplicate
  | noRoom
  | fallbackFailed
  deriving DecidableEq, Repr

/-- Result of an ENTRY-FALLBACK report (R141). -/
inductive FallbackResult where
  | taken (src : Source)
  | blocked (reason : BlockReason)
  deriving DecidableEq, Repr

/-- Result of an ENTRY-REVERTED report (R141). -/
inductive RevertResult where
  | done
  | forced
  | absent
  deriving DecidableEq, Repr

/-- The eleven report kinds, in the order of the table of section 9.2. -/
inductive ReportKind where
  | portState
  | portCongestion
  | timebaseState
  | patternState
  | spliceNotice
  | spliceOutcome
  | laneFault
  | entryFallback
  | entryReverted
  | counterReport
  | counterSaturated
  deriving DecidableEq, Repr

/-- An event handed to the MLT with the items its rule names (section 9.2). -/
inductive Report where
  | portState (p : PortId) (old new : PortState)
  | portCongestion (p : PortId) (entered : Bool)
  | timebaseState (old new : RefState)
  | patternState (p : PortId) (old new : ChkState)
  | spliceNotice (l : LaneId) (record : Nat) (due : BitVec 16)
  | spliceOutcome (l : LaneId) (record : Nat) (status : RecStatus) (outcomes : List (FeedId × SpliceResult))
  | laneFault (l : LaneId) (record : Nat) (cause : LaneCause)
  | entryFallback (f : FeedId) (entry : Nat) (outTag : Tag) (failed : Source) (portState : PortState)
      (result : FallbackResult)
  | entryReverted (f : FeedId) (entry : Nat) (outTag : Tag) (protSrc : Option Source) (result : RevertResult)
  | counterReport (transferNo : BitVec 16) (secNo : BitVec 32) (cycleNo : BitVec 16) (period : Nat) (nonZero : Vector Bool 81)
  | counterSaturated (counter : Nat) (transferNo : BitVec 16)
  deriving DecidableEq, Repr

/-- A report in the queue with its stamps (R161) and its Lost flag and DropCount (R162). -/
structure QueuedReport where
  report : Report
  tick : BitVec 32
  cycle : BitVec 16
  lost : Bool
  dropCount : Nat
  deriving DecidableEq, Repr

/-- Which state changes of a kind are reported (R161). -/
inductive EdgeMode where
  | anyChange
  | worsenOnly
  deriving DecidableEq, Repr

/-- How counter periods end (R163). -/
inductive CounterMode where
  | manual
  | auto
  deriving DecidableEq, Repr

/-- The state of the MLT (table of chapter 9); the counters stand in Counters. sent is the model's own: the cell the monitor
link carried at the latest slot boundary (log entry 7). enables holds one bit for each kind, bit 0 for PORT-STATE. -/
structure Mlt where
  responses : List Response
  reports : List QueuedReport
  lostPending : Bool
  dropCount : Nat
  monCont : BitVec 4
  monFillCont : BitVec 4
  enables : BitVec 11
  portEdge : EdgeMode
  timebaseEdge : EdgeMode
  patternEdge : EdgeMode
  counterMode : CounterMode
  period : Nat
  secsLeft : Option Nat
  transferNo : BitVec 16
  lastTransfer : Option (BitVec 32 × BitVec 16)
  sent : Option Cell
  deriving DecidableEq, Repr

/-! ### Management (chapter 8) -/

/-- Whether CONTROL cells are taken (R146). -/
inductive WakeState where
  | asleep
  | awake
  deriving DecidableEq, Repr

/-- Standing of REX (table before R144). -/
inductive RexState where
  | idle
  | holding
  deriving DecidableEq, Repr

/-- The state of the CRX and of REX (table before R144). -/
structure Mgmt where
  unitAddr : BitVec 12
  groups : Vector (Option (BitVec 12)) 4
  wake : WakeState
  intake : List Taken
  heldResponse : Option Response
  deriving DecidableEq, Repr

/-- RexState, which is HOLDING exactly while HeldResponse holds a response (R150, log entry 24). -/
def Mgmt.rexState (m : Mgmt) : RexState :=
  match m.heldResponse with
  | some _ => .holding
  | none => .idle

/-! ### The whole state -/

/-- The model's own record of what is still to be taken of the present instant. slotFeeds and monitor: the parties that have
not yet taken a slot boundary that has been opened (R8, log entry 3). cycleFeeds, lanes and reverts: the same of a cycle
boundary (R9); bit n of reverts[f] is the revert countdown of entry n of feed f. epochPassed: a slot boundary has been opened at
the present tick with an epoch pending, so no epoch falls at this tick (R15, log entry 20). walks: the lanes that have a record
completed by the event being applied and move on when it has been applied whole, in the order of completion (R128, log entry 8);
none between two commands. -/
structure Due where
  slotFeeds : FeedSet
  monitor : Bool
  cycleFeeds : FeedSet
  lanes : BitVec 4
  reverts : Vector (BitVec 64) 8
  epochPassed : Bool
  walks : List LaneId
  deriving DecidableEq, Repr

/-- Nothing is still to be taken. -/
def Due.nothing : Due :=
  { slotFeeds := 0, monitor := false, cycleFeeds := 0, lanes := 0, reverts := Vector.replicate 8 0, epochPassed := false,
    walks := [] }

/-- The state of the part and the queue of commands that wait. -/
structure State where
  tbu : Tbu
  ports : Vector Port 13
  counters : Counters
  store : Store
  maps : Vector FeedMap 8
  commits : List Commit
  heldCommits : List Response
  feeds : Vector Feed 8
  ssu : Ssu
  mgmt : Mgmt
  mlt : Mlt
  due : Due
  pending : List Instr
  deriving DecidableEq, Repr

/-- Why the machine would stop with a fault. The part takes no exception and no command stops it, so there is no reason:
no meaning raises a fault (safe; log entry 1). -/
inductive Fault where
  deriving DecidableEq, Repr

/-- Why a command would be refused. -/
inductive Refusal where
  /-- Raised by exec for a command that has no meaning yet, with the table's mnemonic (safe: nothing can be proved of it). No
  command of this model raises it. -/
  | notModelled (mnemonic : String)
  deriving DecidableEq, Repr

/-! ### Power-up values -/

/-- The TBU at power-up (R17). -/
def Tbu.powerUp : Tbu :=
  { tickCount := 0, secNo := 0, refState := .free, nextSecond := 16384000, lastSecond := none, expMark := none,
    relockRun := 0, lastMark := none, slotInt := 1048, slotFrac := 37749, pendSlotPeriod := none, slotPos := 68719477,
    slotIndex := 0, cycleLen := 1024, pendCycleLen := none, cycleNo := 0, pendEpoch := none }

/-- The settings of a regional port at power-up (section 2.2, R35). -/
def Settings.regional : Settings :=
  { enable := false, quota := 1024, maxAge := 2097152, nomDelay := 0, jitLimit := 65536, winLen := 512, winMin := 3,
    lossTimeout := 160, checkTag := none }

/-- CP1 to CP12 at power-up (R35). -/
def Port.regional : Port :=
  { state := .down, goodRun := 0, badRun := 0, winCount := 0, winProg := 0, thinRun := 0, fullRun := 0,
    lossDeadline := none, align := [], settings := Settings.regional, chkState := .search, chkRun := 0,
    chkGen := BitVec.allOnes 17 }

/-- CP0 at power-up (R35). -/
def Port.national : Port :=
  { Port.regional with
    state := .hunt, lossDeadline := some 163840, settings := { Settings.regional with enable := true, quota := 4096 } }

/-- Counters at power-up (R170). -/
def Counters.powerUp : Counters :=
  { live := Vector.replicate 81 0, held := Vector.replicate 81 0, satMark := Vector.replicate 81 false }

/-- The store and the stream table at power-up (R58). -/
def Store.powerUp : Store :=
  { cells := [], pool := { freed := [], fresh := 0 }, occ := Vector.replicate 13 0, cong := Vector.replicate 13 false,
    streams := [] }

/-- The maps of a feed at power-up (R78). -/
def FeedMap.powerUp : FeedMap :=
  { activeBank := .a, bankA := [], bankB := [], live := [], locked := false }

/-- A feed composer at power-up (R102, R171). -/
def Feed.powerUp : Feed :=
  { state := .disabled, pendMode := .none, testTag := 0, fillCont := 0, gen := BitVec.allOnes 17, patCont := 0,
    injectPending := false, sent := none }

/-- A lane at power-up (R130). -/
def Lane.powerUp : Lane := { state := .stopped, curRec := 0, linkRun := 0 }

/-- Schedule memory and lanes at power-up (R130). -/
def Ssu.powerUp : Ssu := { records := [], lanes := Vector.replicate 4 Lane.powerUp }

/-- The CRX and REX at power-up with these strap values (R144, R156). -/
def Mgmt.powerUp (straps : BitVec 12) : Mgmt :=
  { unitAddr := straps, groups := Vector.replicate 4 none, wake := .asleep, intake := [], heldResponse := none }

/-- The MLT at power-up (R170). -/
def Mlt.powerUp : Mlt :=
  { responses := [], reports := [], lostPending := false, dropCount := 0, monCont := 0, monFillCont := 0,
    enables := BitVec.allOnes 11, portEdge := .anyChange, timebaseEdge := .anyChange, patternEdge := .anyChange,
    counterMode := .manual, period := 60, secsLeft := none, transferNo := 0, lastTransfer := none, sent := none }

/-- The part at power-up with these values at the strap pins, nothing waiting. -/
def State.powerUp (straps : BitVec 12) : State :=
  { tbu := Tbu.powerUp, ports := (Vector.replicate 13 Port.regional).set 0 Port.national, counters := Counters.powerUp,
    store := Store.powerUp, maps := Vector.replicate 8 FeedMap.powerUp, commits := [], heldCommits := [],
    feeds := Vector.replicate 8 Feed.powerUp, ssu := Ssu.powerUp, mgmt := Mgmt.powerUp straps, mlt := Mlt.powerUp,
    due := Due.nothing, pending := [] }

/-- The part right after power-up. The strap value is DESIGN CHOICE 0, no unit address of its own (R144, log entry 4). -/
def State.reset : State := State.powerUp 0

end Sys2Proof.Machine
end

