-- ==== Sys2Proof/Machine/Table.lean ====
section
/-! DEFINITION. Sparse tables in one canonical form (log entry 23), fixed vectors and feed sets: the plain containers that
every block's state is held in. -/

namespace Sys2Proof.Machine

/-- The content listed for an index. -/
def Table.find {α : Type} : List (Nat × α) → Nat → Option α
  | [], _ => none
  | (k, v) :: t, i => if k = i then some v else Table.find t i

/-- Lists a content for an index, in rising order of the indices. -/
def Table.put {α : Type} : List (Nat × α) → Nat → α → List (Nat × α)
  | [], i, x => [(i, x)]
  | (k, v) :: t, i, x => if i < k then (i, x) :: (k, v) :: t else if i = k then (i, x) :: t else (k, v) :: Table.put t i x

/-- Unlists an index. -/
def Table.erase {α : Type} : List (Nat × α) → Nat → List (Nat × α)
  | [], _ => []
  | (k, v) :: t, i => if k = i then t else (k, v) :: Table.erase t i

/-- Reads a table in which an unlisted index holds d. -/
def Table.get {α : Type} (d : α) (t : List (Nat × α)) (i : Nat) : α := (Table.find t i).getD d

/-- Writes a table in which an unlisted index holds d, keeping its canonical form. -/
def Table.set {α : Type} [DecidableEq α] (d : α) (t : List (Nat × α)) (i : Nat) (x : α) : List (Nat × α) :=
  if x = d then Table.erase t i else Table.put t i x

/-- The indices of a table rise strictly. -/
def Table.sorted {α : Type} : List (Nat × α) → Bool
  | [] => true
  | (k, _) :: t => t.all (fun kv => k < kv.1) && Table.sorted t

/-- The canonical form of a table in which an unlisted index holds d (log entry 23). -/
def Table.wf {α : Type} [DecidableEq α] (d : α) (t : List (Nat × α)) : Bool :=
  Table.sorted t && t.all (fun kv => kv.2 ≠ d)

/-- The indices a table lists. -/
def Table.keys {α : Type} (t : List (Nat × α)) : List Nat := t.map Prod.fst

/-- A vector with one place replaced. -/
def upd {α : Type} {n : Nat} (v : Vector α n) (i : Fin n) (x : α) : Vector α n := v.set i.val x i.isLt

/-- FD0 to FD7 in feed order (00_scope.md, Names). -/
def allFeeds : List FeedId := [0, 1, 2, 3, 4, 5, 6, 7]

/-- CP0 to CP12 in port order. -/
def allPorts : List PortId := [0, 1, 2, 3, 4, 5, 6, 7, 8, 9, 10, 11, 12]

/-- L0 to L3 in lane order. -/
def allLanes : List LaneId := [0, 1, 2, 3]

/-- A feed is in a feed set (R179: bit n for FDn). -/
def hasFeed (fs : FeedSet) (f : FeedId) : Bool := fs.getLsbD f.val

/-- The feed set of one feed. -/
def oneFeed (f : FeedId) : FeedSet := BitVec.twoPow 8 f.val

/-- A feed set with a feed. -/
def addFeed (fs : FeedSet) (f : FeedId) : FeedSet := fs ||| oneFeed f

/-- A feed set without a feed. -/
def dropFeed (fs : FeedSet) (f : FeedId) : FeedSet := fs &&& ~~~ oneFeed f

/-- The feeds of a set in feed order. -/
def feedList (fs : FeedSet) : List FeedId := allFeeds.filter (hasFeed fs)

/-- The feed set of the feeds that satisfy a test. -/
def feedsWhere (p : FeedId → Bool) : FeedSet := allFeeds.foldl (fun fs f => if p f then addFeed fs f else fs) 0

/-- The list without repeats, each value at its first place. -/
def distinct {α : Type} [DecidableEq α] : List α → List α
  | [] => []
  | x :: t => x :: (distinct t).filter (fun y => y ≠ x)

/-- The first position whose value stands again later in the list (DESIGN CHOICE where several do: log entry 33). -/
def firstRepeat {α : Type} [DecidableEq α] : List (Nat × α) → Option Nat
  | [] => none
  | (k, x) :: t => if t.any (fun kv => kv.2 = x) then some k else firstRepeat t

end Sys2Proof.Machine
end

