-- ==== Sys2Proof/Machine/Operands.lean ====
section
/-! DEFINITION. The operand forms of the part: bytes and numbers (R179), the header and its check (R178), the values of a
request's fields (R179, R152), and the request record of a CONTROL cell (R180, R181). -/

namespace Sys2Proof.Machine

/-! ### Numbers in bytes (R179) -/

/-- A number as n bytes, most significant byte first (section 11). -/
def bytesOf : Nat → Nat → List Byte
  | 0, _ => []
  | n + 1, v => BitVec.ofNat 8 (v / 256 ^ n) :: bytesOf n v

/-- The number that bytes spell, most significant byte first. -/
def numberOf (bs : List Byte) : Nat := bs.foldl (fun a b => a * 256 + b.toNat) 0

/-- n bytes of a byte string from an offset, as a number. -/
def fieldAt (bs : List Byte) (off n : Nat) : Nat := numberOf ((bs.drop off).take n)

/-- A byte string cut or filled with 00h to n bytes (R183). -/
def padTo (n : Nat) (bs : List Byte) : List Byte := (bs ++ List.replicate n (0 : Byte)).take n

/-- The bits of bytes, most significant bit of each byte first (section 11). -/
def bitsOf (bs : List Byte) : List Bool :=
  bs.flatMap (fun b => [b.getLsbD 7, b.getLsbD 6, b.getLsbD 5, b.getLsbD 4, b.getLsbD 3, b.getLsbD 2, b.getLsbD 1, b.getLsbD 0])

/-- The byte that eight bits spell, most significant first. -/
def byteOfBits (bits : List Bool) : Byte := BitVec.ofNat 8 (bits.foldl (fun a b => a * 2 + b.toNat) 0)

/-- The bytes that bits spell, eight to a byte; n is the number of bytes. -/
def bytesOfBits : Nat → List Bool → List Byte
  | 0, _ => []
  | n + 1, bits => byteOfBits (bits.take 8) :: bytesOfBits n (bits.drop 8)

/-! ### The header (R178) -/

/-- Kind as its two bits (R178). -/
def Kind.code : Kind → BitVec 2
  | .programme => 0
  | .fill => 1
  | .control => 2
  | .address => 3

/-- The kind that two bits code (R178). -/
def kindOf (c : BitVec 2) : Kind :=
  if c = 0 then .programme else if c = 1 then .fill else if c = 2 then .control else .address

/-- Header bytes 0 to 2 as one 24-bit word, the spare bits 0 (R178). -/
def Header.word (h : Header) : BitVec 24 :=
  h.kind.code ++ h.tag ++ BitVec.ofBool h.boundary ++ BitVec.ofBool h.marked ++ BitVec.ofBool h.disc ++ (0 : BitVec 3) ++ h.cont

/-- One bit of the header check: the register shifts left and takes 07h where the bit shifted out differs from the incoming
bit (R178). -/
def crcBit (r : Byte) (b : Bool) : Byte := if r.msb != b then (r <<< 1) ^^^ (0x07 : Byte) else r <<< 1

/-- The header check over bytes, the register starting at FFh (R178). -/
def crc8 (bs : List Byte) : Byte := (bitsOf bs).foldl crcBit (0xFF : Byte)

/-- The three bytes of a header word. -/
def headerBytes (w : BitVec 24) : List Byte := [w.extractLsb' 16 8, w.extractLsb' 8 8, w.extractLsb' 0 8]

/-- A header with its check computed, as the part sends it (R178). -/
def Header.sealed (h : Header) : Header := { h with check := crc8 (headerBytes h.word) }

/-- The four header bytes of a cell. -/
def Header.bytes (h : Header) : List Byte := headerBytes h.word ++ [h.check]

/-- The header that three bytes and a check byte hold; the spare bits are not kept (R178). -/
def headerOf (b0 b1 b2 check : Byte) : Header :=
  let w : BitVec 24 := b0 ++ b1 ++ b2
  { kind := kindOf (w.extractLsb' 22 2), tag := w.extractLsb' 10 12, boundary := w.getLsbD 9, marked := w.getLsbD 8,
    disc := w.getLsbD 7, cont := w.extractLsb' 0 4, check := check }

/-- The 160 bytes of a cell. -/
def Cell.bytes (c : Cell) : List Byte := c.hdr.bytes ++ c.payload

/-- The byte at a place, 00h past the end. -/
def byteAt (bs : List Byte) (n : Nat) : Byte := bs.getD n 0

/-- The header check of a received unit is correct: the check over bytes 0 to 2 as received equals byte 3 (R21, R178). -/
def headerGood (unit : List Byte) : Bool := crc8 (unit.take 3) = byteAt unit 3

/-- The header of a received unit. -/
def unitHeader (unit : List Byte) : Header := headerOf (byteAt unit 0) (byteAt unit 1) (byteAt unit 2) (byteAt unit 3)

/-- The payload of a received unit. -/
def unitPayload (unit : List Byte) : List Byte := unit.drop 4

/-- Kind and Tag agree (R24). -/
def kindTagAgree (h : Header) : Bool :=
  match h.kind with
  | .programme => h.tag.toNat ≤ Config.maxProgrammeTag
  | .fill => h.tag = Config.fillTag
  | .control => h.tag = Config.controlTag
  | .address => h.tag = Config.controlTag

/-! ### Values of request fields (R179) -/

/-- A programme tag in two bytes, refused above 4093 (R179, R152). -/
def tagOf (w : BitVec 16) : Option Tag :=
  if w.toNat ≤ Config.maxProgrammeTag then some (w.setWidth 12) else none

/-- A required source: port 0 to 12 in bits 15 to 12, tag 0 to 4093 in bits 11 to 0; FFFFh and any other value are refused
(R179). -/
def sourceOf (w : BitVec 16) : Option Source :=
  let p := (w.extractLsb' 12 4).toNat
  let t : Tag := w.extractLsb' 0 12
  if h : p < 13 then
    if t.toNat ≤ Config.maxProgrammeTag then some { port := ⟨p, h⟩, tag := t } else none
  else none

/-- An optional source, FFFFh for none: the outer option is a refusal (R179). -/
def optSourceOf (w : BitVec 16) : Option (Option Source) :=
  if w = 0xFFFF then some none else (sourceOf w).map some

/-- An optional programme tag, FFFFh for none or absent (R179). -/
def optTagOf (w : BitVec 16) : Option (Option Tag) :=
  if w = 0xFFFF then some none else (tagOf w).map some

/-- A flag byte, refused unless 00h or 01h (R179). -/
def flagOf (b : BitVec 8) : Option Bool :=
  if b = 0 then some false else if b = 1 then some true else none

/-- A feed index, refused outside 0 to 7. -/
def feedOf (b : BitVec 8) : Option FeedId := if h : b.toNat < 8 then some ⟨b.toNat, h⟩ else none

/-- A port index, refused outside 0 to 12. -/
def portOf (b : BitVec 8) : Option PortId := if h : b.toNat < 13 then some ⟨b.toNat, h⟩ else none

/-- A lane index, refused outside 0 to 3. -/
def laneOf (b : BitVec 8) : Option LaneId := if h : b.toNat < 4 then some ⟨b.toNat, h⟩ else none

/-- A map entry index, refused outside 0 to 63. -/
def entryOf (b : BitVec 8) : Option Nat := if b.toNat < Config.mapEntries then some b.toNat else none

/-- A splice record index, refused outside 0 to 1023. -/
def recordOf (w : BitVec 16) : Option Nat := if w.toNat < Config.spliceRecords then some w.toNat else none

/-- A group address, 1 to 4094, or FFFFh for unused; 0, 4095 and any other value are refused (R145). -/
def groupOf (w : BitVec 16) : Option (Option (BitVec 12)) :=
  if w = 0xFFFF then some none
  else if 1 ≤ w.toNat ∧ w.toNat ≤ 4094 then some (some (w.setWidth 12)) else none

/-- Carries by its code (R179, section 6.1). -/
def carriesOf (b : BitVec 8) : Option Carries := if b = 0 then some .action else if b = 1 then some .link else none

/-- Action by its code (R179, section 6.1). -/
def actionOf (b : BitVec 8) : Option Action :=
  if b = 0 then some .switch else if b = 1 then some .returnHome else if b = 2 then some .share else none

/-- OnMiss by its code (R179, section 6.1). -/
def onMissOf (b : BitVec 8) : Option OnMiss := if b = 0 then some .force else if b = 1 then some .cancel else none

/-- EdgeMode by its code (R179, R163). -/
def edgeModeOf (b : BitVec 8) : Option EdgeMode :=
  if b = 0 then some .anyChange else if b = 1 then some .worsenOnly else none

/-- CounterMode by its code (R163). -/
def counterModeOf (b : BitVec 8) : Option CounterMode :=
  if b = 0 then some .manual else if b = 1 then some .auto else none

/-- A number brought into its range (R152). -/
def clampTo (lo hi v : Nat) : Nat := if v < lo then lo else if hi < v then hi else v

/-! ### Request records (R180, R181) -/

/-- The parameter length of a request kind by its code; none for a code that is no kind (table of R181). -/
def kindLength (code : Nat) : Option Nat :=
  match code with
  | 0x10 => some 4
  | 0x11 => some 2
  | 0x12 => some 2
  | 0x13 => some 0
  | 0x20 => some 22
  | 0x21 => some 1
  | 0x30 => some 13
  | 0x31 => some 2
  | 0x32 => some 1
  | 0x33 => some 3
  | 0x40 => some 4
  | 0x41 => some 2
  | 0x42 => some 1
  | 0x50 => some 20
  | 0x51 => some 2
  | 0x52 => some 3
  | 0x53 => some 1
  | 0x54 => some 1
  | 0x60 => some 8
  | 0x61 => some 0
  | 0x62 => some 1
  | 0x70 => some 8
  | 0x71 => some 0
  | _ => none

/-- Parameter bytes as a word of w bits; parameters begin at payload byte 4 (R180). -/
def param (w : Nat) (r : List Byte) (off : Nat) : BitVec w := BitVec.ofNat w (fieldAt r (4 + off) (w / 8))

/-- The request of a kind code with its parameters in the order of section 11.3. -/
def requestOf (code : Nat) (r : List Byte) : Request :=
  match code with
  | 0x10 => .setSlotPeriod (param 16 r 0) (param 16 r 2)
  | 0x11 => .setCycleLength (param 16 r 0)
  | 0x12 => .setEpoch (param 16 r 0)
  | 0x13 => .readTimebase
  | 0x20 => .setPort
      { port := param 8 r 0, mask := param 16 r 1, enable := param 8 r 3, quota := param 16 r 4, maxAge := param 24 r 6,
        nomDelay := param 24 r 9, jitLimit := param 24 r 12, winLen := param 16 r 15, winMin := param 8 r 17,
        lossTimeout := param 16 r 18, checkTag := param 16 r 20 }
  | 0x21 => .readPort (param 8 r 0)
  | 0x30 => .writeMapEntry
      { feeds := param 8 r 0, index := param 8 r 1, outTag := param 16 r 2, homeSrc := param 16 r 4, fallSrc := param 16 r 6,
        share := param 24 r 8, autoRevert := param 8 r 11, revertDelay := param 8 r 12 }
  | 0x31 => .clearMapEntry (param 8 r 0) (param 8 r 1)
  | 0x32 => .commitMap (param 8 r 0)
  | 0x33 => .readMapEntry (param 8 r 0) (param 8 r 1) (param 8 r 2)
  | 0x40 => .setFeed (param 8 r 0) (param 8 r 1) (param 16 r 2)
  | 0x41 => .readFeed (param 8 r 0) (param 8 r 1)
  | 0x42 => .injectPatternError (param 8 r 0)
  | 0x50 => .writeSpliceRecord
      { index := param 16 r 0, nextRec := param 16 r 2, carries := param 8 r 4, goesOn := param 8 r 5, action := param 8 r 6,
        feeds := param 8 r 7, outTag := param 16 r 8, newSrc := param 16 r 10, newShare := param 24 r 12,
        dueCycle := param 16 r 15, noticeLead := param 8 r 17, window := param 8 r 18, onMiss := param 8 r 19 }
  | 0x51 => .readSpliceRecord (param 16 r 0)
  | 0x52 => .startLane (param 8 r 0) (param 16 r 1)
  | 0x53 => .stopLane (param 8 r 0)
  | 0x54 => .readLane (param 8 r 0)
  | 0x60 => .setReporting
      { enables := param 16 r 0, portEdge := param 8 r 2, timebaseEdge := param 8 r 3, patternEdge := param 8 r 4,
        counterMode := param 8 r 5, period := param 16 r 6 }
  | 0x61 => .latchCounters
  | 0x62 => .readCounters (param 8 r 0)
  | 0x70 => .setGroups { g0 := param 16 r 0, g1 := param 16 r 2, g2 := param 16 r 4, g3 := param 16 r 6 }
  | 0x71 => .softReset
  | _ => .malformed

/-- A SET-PORT change mask bit, bit 0 Enable to bit 8 CheckTag (section 11.3). -/
def portListed (p : PortParams) (n : Nat) : Bool := p.mask.getLsbD n

/-- The spare fields of SET-PORT are 0: the upper 7 bits of the change mask and every setting field whose bit is clear
(R181). -/
def portSpareClear (p : PortParams) : Bool :=
  p.mask.toNat < 512 && (portListed p 0 || p.enable = 0) && (portListed p 1 || p.quota = 0) && (portListed p 2 || p.maxAge = 0)
    && (portListed p 3 || p.nomDelay = 0) && (portListed p 4 || p.jitLimit = 0) && (portListed p 5 || p.winLen = 0) && (portListed p 6 || p.winMin = 0)
    && (portListed p 7 || p.lossTimeout = 0) && (portListed p 8 || p.checkTag = 0)

/-- The spare field of SET-REPORTING is 0: the upper 5 bits of the enable field (R181). -/
def reportingSpareClear (p : ReportingParams) : Bool := p.enables.toNat < 2048

/-- A request is well formed: its record has a known kind, the kind's length and spare fields of 0 (R151, R181). -/
def Request.wellFormed : Request → Bool
  | .malformed => false
  | .setPort p => portSpareClear p
  | .setReporting p => reportingSpareClear p
  | _ => true

/-- The request that a CONTROL cell's payload carries: RequestTag in bytes 0 and 1, kind code in byte 2, length in byte 3,
parameters from byte 4 (R180). A record of unknown kind or wrong length is malformed (R181). -/
def takenOf (r : List Byte) : Taken :=
  let code := (byteAt r 2).toNat
  { tag := BitVec.ofNat 16 (fieldAt r 0 2), kind := byteAt r 2,
    request := if kindLength code = some (byteAt r 3).toNat then requestOf code r else .malformed }

/-! ### Address records (R180, R146) -/

/-- The addresses that an ADDRESS cell lists; none for a count outside 1 to 16 or a read field above 4095 (R146, R180). -/
def addressesOf (r : List Byte) : Option (List (BitVec 12)) :=
  let n := (byteAt r 0).toNat
  let vs := (List.range n).map (fun k => fieldAt r (1 + 2 * k) 2)
  if 1 ≤ n ∧ n ≤ 16 then
    if vs.all (fun v => v ≤ 4095) then some (vs.map (BitVec.ofNat 12)) else none
  else none

/-! ### The pattern sequence (R171) -/

/-- The generator's next bit: the bit 17 places back exclusive-or the bit 14 places back. The state holds the last 17 bits
produced, the newest in bit 0. -/
def genBit (g : BitVec 17) : Bool := g.getLsbD 16 ^^ g.getLsbD 13

/-- The generator's state after a bit. -/
def genPush (g : BitVec 17) (b : Bool) : BitVec 17 := (g <<< 1) ||| (BitVec.ofBool b).setWidth 17

/-- The next n bits of the generator and the state after them. -/
def genRun : Nat → BitVec 17 → List Bool × BitVec 17
  | 0, g => ([], g)
  | n + 1, g =>
    let b := genBit g
    let r := genRun n (genPush g b)
    (b :: r.1, r.2)

/-- How many bits of two runs differ. -/
def mismatches : List Bool → List Bool → Nat
  | a :: as, b :: bs => (a != b).toNat + mismatches as bs
  | _, _ => 0

end Sys2Proof.Machine
end

