-- ==== Sys2Proof/Machine/Ops.lean ====
section
/-! DEFINITION. The named reads and writes of State that every block's rules are written with. -/

namespace Sys2Proof.Machine

/-! ### Ports -/

/-- The state of a port. -/
def State.port (s : State) (p : PortId) : Port := s.ports.get p

/-- Writes the state of a port. -/
def State.setPort (s : State) (p : PortId) (q : Port) : State := { s with ports := upd s.ports p q }

/-- A port is LIVE. -/
def State.portLive (s : State) (p : PortId) : Bool := (s.port p).state = .live

/-! ### Feeds -/

/-- The state of a feed composer. -/
def State.feed (s : State) (f : FeedId) : Feed := s.feeds.get f

/-- Writes the state of a feed composer. -/
def State.setFeed (s : State) (f : FeedId) (x : Feed) : State := { s with feeds := upd s.feeds f x }

/-- A feed is RUNNING. -/
def State.feedRunning (s : State) (f : FeedId) : Bool := (s.feed f).state = .running

/-- A feed is RUNNING or STARTING: it needs the streams of its entries (R41). -/
def State.feedNeeds (s : State) (f : FeedId) : Bool :=
  (s.feed f).state = .running || (s.feed f).state = .starting

/-! ### Service maps -/

/-- The maps of a feed. -/
def State.map (s : State) (f : FeedId) : FeedMap := s.maps.get f

/-- Writes the maps of a feed. -/
def State.setMap (s : State) (f : FeedId) (m : FeedMap) : State := { s with maps := upd s.maps f m }

/-- The other bank. -/
def Bank.other : Bank → Bank
  | .a => .b
  | .b => .a

/-- A bank of a feed. -/
def FeedMap.bank (m : FeedMap) : Bank → List (Nat × MapEntry)
  | .a => m.bankA
  | .b => m.bankB

/-- Writes a bank of a feed. -/
def FeedMap.setBank (m : FeedMap) (k : Bank) (t : List (Nat × MapEntry)) : FeedMap :=
  match k with
  | .a => { m with bankA := t }
  | .b => { m with bankB := t }

/-- The bank whose used entries are live (R60). -/
def FeedMap.active (m : FeedMap) : List (Nat × MapEntry) := m.bank m.activeBank

/-- The shadow bank. -/
def FeedMap.shadow (m : FeedMap) : List (Nat × MapEntry) := m.bank m.activeBank.other

/-- The configuration of an entry of a bank. -/
def bankEntry (t : List (Nat × MapEntry)) (e : Nat) : MapEntry := Table.get MapEntry.unused t e

/-- Writes the configuration of an entry of a bank. -/
def setBankEntry (t : List (Nat × MapEntry)) (e : Nat) (x : MapEntry) : List (Nat × MapEntry) :=
  Table.set MapEntry.unused t e x

/-- The used entries of a bank, in index order. -/
def usedEntries (t : List (Nat × MapEntry)) : List Nat :=
  (List.range Config.mapEntries).filter (fun e => (bankEntry t e).used)

/-- The sum of Share over the used entries of a bank (R63). -/
def shareSum (t : List (Nat × MapEntry)) : Nat := ((usedEntries t).map (fun e => (bankEntry t e).share)).sum

/-- The configuration of an entry of a feed's active bank. -/
def State.entry (s : State) (f : FeedId) (e : Nat) : MapEntry := bankEntry (s.map f).active e

/-- The live fields of an entry of a feed's active bank. -/
def State.live (s : State) (f : FeedId) (e : Nat) : Live := Table.get Live.vacant (s.map f).live e

/-- Writes the live fields of an entry. -/
def State.setLive (s : State) (f : FeedId) (e : Nat) (l : Live) : State :=
  s.setMap f { s.map f with live := Table.set Live.vacant (s.map f).live e l }

/-- The live entries of a feed in index order (R60). -/
def State.liveEntries (s : State) (f : FeedId) : List Nat := usedEntries (s.map f).active

/-- The live entry of a feed that carries an output tag (section 6.1). -/
def State.entryOfTag (s : State) (f : FeedId) (t : Tag) : Option Nat :=
  (s.liveEntries f).find? (fun e => (s.entry f e).outTag = t)

/-- A live entry is in a splice or a revert (R61). -/
def Live.busy (l : Live) : Bool := l.estate = .outWait || l.estate = .inWait

/-- A feed has a live entry in OUT-WAIT or IN-WAIT (R71). -/
def State.feedBusy (s : State) (f : FeedId) : Bool := (s.liveEntries f).any (fun e => (s.live f e).busy)

/-- A source is the CurSrc, NewSrc or PrevSrc of a live entry of the feed other than this one (R117, R132, R138). -/
def State.sourceTaken (s : State) (f : FeedId) (e : Nat) (src : Source) : Bool :=
  (s.liveEntries f).any (fun k => k ≠ e &&
    ((s.live f k).curSrc = some src || (s.live f k).newSrc = some src || (s.live f k).prevSrc = some src))

/-- Every live entry of a feed takes its rest values (R62). -/
def State.restEntries (s : State) (f : FeedId) : State :=
  (s.liveEntries f).foldl (fun s e => s.setLive f e (Live.rest (s.entry f e).homeSrc)) s

/-! ### Cycle length and distances -/

/-- U, the cost of one cell in sixteenths (00_scope.md, Slots and cycles). -/
def State.unitCost (s : State) : Nat := 16 * s.tbu.cycleLen

/-- U as checks read it: 16 times the pending length while one is pending (R12). -/
def State.checkCost (s : State) : Nat := 16 * s.tbu.pendCycleLen.getD s.tbu.cycleLen

/-- The modular distance of a cycle number from CycleNo (R13). -/
def State.distance (s : State) (d : BitVec 16) : Nat := (d - s.tbu.cycleNo).toNat

/-- The low 32 bits of TickCount (R1). -/
def State.stamp (s : State) : BitVec 32 := s.tbu.tickCount.setWidth 32

/-! ### Splice schedule -/

/-- A splice record. -/
def State.record (s : State) (r : Nat) : SpliceRecord := Table.get SpliceRecord.blank s.ssu.records r

/-- Writes a splice record. -/
def State.setRecord (s : State) (r : Nat) (x : SpliceRecord) : State :=
  { s with ssu := { s.ssu with records := Table.set SpliceRecord.blank s.ssu.records r x } }

/-- A lane. -/
def State.lane (s : State) (l : LaneId) : Lane := s.ssu.lanes.get l

/-- Writes a lane. -/
def State.setLane (s : State) (l : LaneId) (x : Lane) : State :=
  { s with ssu := { s.ssu with lanes := upd s.ssu.lanes l x } }

/-- A record is in use: NOTICED or ARMED (R104). -/
def SpliceRecord.inUse (r : SpliceRecord) : Bool := r.status = .noticed || r.status = .armed

/-- The mark of a feed in a record. -/
def SpliceRecord.markOf (r : SpliceRecord) (f : FeedId) : Option Mark := (r.marks.find? (fun m => m.1 = f)).map Prod.snd

/-- The outcome of a feed in a record. -/
def SpliceRecord.outcomeOf (r : SpliceRecord) (f : FeedId) : Option SpliceResult :=
  (r.outcomes.find? (fun m => m.1 = f)).map Prod.snd

/-- How many items of a record are STARTED. -/
def SpliceRecord.startedCount (r : SpliceRecord) : Nat := (r.outcomes.filter (fun o => o.2 = .started)).length

end Sys2Proof.Machine
end

