-- ==== Sys2Proof/Machine/Monitor.lean ====
section
/-! DEFINITION. What the MLT does for the other blocks: it takes the events they hand it (R161, R162), watches the counters
for saturation (R164), makes counter transfers (R165), and places responses (R160). -/

namespace Sys2Proof.Machine

/-! ### Reports -/

/-- The kind of a report (section 9.2). -/
def Report.kind : Report → ReportKind
  | .portState .. => .portState
  | .portCongestion .. => .portCongestion
  | .timebaseState .. => .timebaseState
  | .patternState .. => .patternState
  | .spliceNotice .. => .spliceNotice
  | .spliceOutcome .. => .spliceOutcome
  | .laneFault .. => .laneFault
  | .entryFallback .. => .entryFallback
  | .entryReverted .. => .entryReverted
  | .counterReport .. => .counterReport
  | .counterSaturated .. => .counterSaturated

/-- The place of a kind in the table of section 9.2, its report kind code (R182). -/
def ReportKind.code : ReportKind → Nat
  | .portState => 0
  | .portCongestion => 1
  | .timebaseState => 2
  | .patternState => 3
  | .spliceNotice => 4
  | .spliceOutcome => 5
  | .laneFault => 6
  | .entryFallback => 7
  | .entryReverted => 8
  | .counterReport => 9
  | .counterSaturated => 10

/-- The edge mode admits the event (R161): under WORSEN-ONLY only a change whose old state is LIVE or LOCKED. -/
def Mlt.edgeAdmits (m : Mlt) : Report → Bool
  | .portState _ old _ => m.portEdge = .anyChange || old = .live
  | .timebaseState old _ => m.timebaseEdge = .anyChange || old = .locked
  | .patternState _ old _ => m.patternEdge = .anyChange || old = .locked
  | _ => true

/-- An event becomes a report (R161). -/
def Mlt.admits (m : Mlt) (r : Report) : Bool := m.enables.getLsbD r.kind.code && m.edgeAdmits r

/-- An admitted event, stamped, is offered to the report queue (R162). -/
def Mlt.enqueue (m : Mlt) (r : Report) (tick : BitVec 32) (cycle : BitVec 16) : Mlt :=
  if m.reports.length < Config.reportPlaces then
    { m with
      reports := m.reports ++
        [{ report := r, tick := tick, cycle := cycle, lost := m.lostPending,
           dropCount := if m.lostPending then m.dropCount else 0 }]
      lostPending := false, dropCount := 0 }
  else { m with lostPending := true, dropCount := min (m.dropCount + 1) Config.counterMax }

/-- An event is handed to the MLT (R161). -/
def State.handReport (s : State) (r : Report) : State :=
  if s.mlt.admits r then { s with mlt := s.mlt.enqueue r s.stamp s.tbu.cycleNo } else s

/-! ### Counters -/

/-- The place of a port counter in the order of R33. -/
def PortCounter.code : PortCounter → Fin 5
  | .hdrErr => 0
  | .contErr => 1
  | .overflow => 2
  | .stale => 3
  | .patternErr => 4

/-- The place of a feed counter in the order of R168. -/
def FeedCounter.code : FeedCounter → Fin 2
  | .fill => 0
  | .clamp => 1

/-- The place of a counter in the order of READ-COUNTERS (R168, R183). -/
def CounterId.index : CounterId → Fin 81
  | .port p c => ⟨5 * p.val + c.code.val, by have := p.isLt; have := c.code.isLt; omega⟩
  | .feed f c => ⟨65 + (2 * f.val + c.code.val), by have := f.isLt; have := c.code.isLt; omega⟩

/-- The value of a live counter. -/
def State.counter (s : State) (c : CounterId) : Nat := s.counters.live.get c.index

/-- A live counter rises by n, saturating at 65535; reaching 65535 from below with its SatMark clear sets the mark and hands
COUNTER-SATURATED with the TransferNo of the period in progress (R164). -/
def State.count (s : State) (c : CounterId) (n : Nat) : State :=
  let v := min (s.counter c + n) Config.counterMax
  let t := { s with counters := { s.counters with live := upd s.counters.live c.index v } }
  if v = Config.counterMax ∧ s.counter c < Config.counterMax ∧ s.counters.satMark.get c.index = false then
    { t with counters := { t.counters with satMark := upd t.counters.satMark c.index true } }.handReport
      (.counterSaturated c.index.val s.mlt.transferNo)
  else t

/-- A counter transfer (R165). -/
def State.transfer (s : State) : State :=
  { s with
    counters :=
      { live := Vector.replicate 81 0, held := s.counters.live, satMark := Vector.replicate 81 false }
    mlt :=
      { s.mlt with
        transferNo := s.mlt.transferNo + 1
        lastTransfer := some (s.tbu.secNo, s.tbu.cycleNo) } }

/-- The transfer of an AUTO period with its COUNTER-REPORT (R166). -/
def State.autoTransfer (s : State) : State :=
  let t := s.transfer
  { t with mlt := { t.mlt with secsLeft := some t.mlt.period } }.handReport
    (.counterReport t.mlt.transferNo t.tbu.secNo t.tbu.cycleNo t.mlt.period (t.counters.held.map (fun v => v ≠ 0)))

/-! ### Responses -/

/-- The response queue has a free place (R160). -/
def State.responseRoom (s : State) : Bool := s.mlt.responses.length < Config.responsePlaces

/-- A response is placed at the back of the response queue (R160). -/
def State.placeResponse (s : State) (r : Response) : State :=
  { s with mlt := { s.mlt with responses := s.mlt.responses ++ [r] } }

/-- The SMU hands on a commit's response: placed if the queue has room and the SMU holds no earlier one, held otherwise
(R77, log entry 26). DESIGN CHOICE, log entry 34: what the SMU holds is not bounded at eight. -/
def State.handCommitResponse (s : State) (r : Response) : State :=
  if s.heldCommits = [] ∧ s.responseRoom then s.placeResponse r else { s with heldCommits := s.heldCommits ++ [r] }

end Sys2Proof.Machine
end

