-- ==== Sys2Proof/Machine/Encode.lean ====
section
/-! DEFINITION. How values stand in the payloads of monitor cells (R179, R182, R183). Codings that the spec leaves open are
log entries 10 to 14. -/

namespace Sys2Proof.Machine

/-! ### Values (R179) -/

/-- One byte. -/
def e1 (v : Nat) : List Byte := bytesOf 1 v

/-- Two bytes. -/
def e2 (v : Nat) : List Byte := bytesOf 2 v

/-- Three bytes. -/
def e3 (v : Nat) : List Byte := bytesOf 3 v

/-- Four bytes. -/
def e4 (v : Nat) : List Byte := bytesOf 4 v

/-- Six bytes. -/
def e6 (v : Nat) : List Byte := bytesOf 6 v

/-- A flag. -/
def eFlag (b : Bool) : List Byte := e1 b.toNat

/-- A signed number in 3 bytes, two's complement. -/
def eSigned (v : Int) : List Byte := e3 (BitVec.ofInt 24 v).toNat

/-- A source. -/
def eSource (x : Source) : List Byte := e2 (x.port.val * 4096 + x.tag.toNat)

/-- An optional source, FFFFh for none. -/
def eOptSource (x : Option Source) : List Byte := (x.map eSource).getD (e2 0xFFFF)

/-- An optional tag or address, FFFFh for none. -/
def eOptTag (x : Option (BitVec 12)) : List Byte := (x.map (fun t => e2 t.toNat)).getD (e2 0xFFFF)

/-- An optional enumerated value, FFh for none. -/
def eOptEnum (x : Option Nat) : List Byte := (x.map e1).getD (e1 0xFF)

/-- Any other optional value of n bytes: a presence byte, then the value or zeros. -/
def eOpt (n : Nat) (x : Option (List Byte)) : List Byte :=
  match x with
  | some bs => e1 1 ++ bs
  | none => e1 0 ++ List.replicate n (0 : Byte)

/-- A list of items preceded by its count in one byte (R183). -/
def eList (xs : List (List Byte)) : List Byte := e1 xs.length ++ xs.flatten

/-! ### Enumerations, coded by position (R179) -/

/-- PortState by the list of section 2.1. -/
def PortState.code : PortState → Nat
  | .down => 0
  | .hunt => 1
  | .live => 2
  | .absent => 3
  | .lost => 4

/-- RefState by the table of section 1.2. -/
def RefState.code : RefState → Nat
  | .free => 0
  | .locked => 1
  | .holdover => 2

/-- ChkState by the table of chapter 10. -/
def ChkState.code : ChkState → Nat
  | .search => 0
  | .locked => 1

/-- EState by the table of R61. -/
def EState.code : EState → Nat
  | .vacant => 0
  | .onAir => 1
  | .outWait => 2
  | .inWait => 3
  | .fallback => 4

/-- Bank A or B. -/
def Bank.code : Bank → Nat
  | .a => 0
  | .b => 1

/-- FeedState by the table of section 5.1. -/
def FeedState.code : FeedState → Nat
  | .disabled => 0
  | .starting => 1
  | .running => 2
  | .test => 3

/-- PendMode as an optional enumerated value, TEST before RUNNING (log entry 14). -/
def PendMode.code : PendMode → Option Nat
  | .none => Option.none
  | .test => some 0
  | .running => some 1

/-- OnMiss by section 4.1. -/
def OnMiss.code : OnMiss → Nat
  | .force => 0
  | .cancel => 1

/-- Carries by section 6.1. -/
def Carries.code : Carries → Nat
  | .action => 0
  | .link => 1

/-- Action by section 6.1. -/
def Action.code : Action → Nat
  | .switch => 0
  | .returnHome => 1
  | .share => 2

/-- RecStatus by the table of R104. -/
def RecStatus.code : RecStatus → Nat
  | .pending => 0
  | .noticed => 1
  | .armed => 2
  | .complete => 3
  | .expired => 4
  | .abandoned => 5

/-- Outcomes by the table of R105. -/
def SpliceResult.code : SpliceResult → Nat
  | .started => 0
  | .done => 1
  | .forced => 2
  | .cancelled => 3
  | .absent => 4
  | .abandoned => 5
  | .noEntry => 6
  | .busy => 7
  | .noRoom => 8
  | .duplicate => 9
  | .unchanged => 10
  | .oversub => 11

/-- Notice marks by the list of R105. DESIGN CHOICE, log entry 37: the table of R115 lists them in another order. -/
def Mark.code : Mark → Nat
  | .held => 0
  | .noRoom => 1
  | .stopped => 2

/-- LaneState by the table of section 6.2. -/
def LaneState.code : LaneState → Nat
  | .stopped => 0
  | .waiting => 1
  | .noticed => 2
  | .armed => 3
  | .parked => 4
  | .stopping => 5

/-- Result codes, OK 00h to TIMEOUT 0Bh (R182). -/
def Result.code : Result → Nat
  | .ok => 0
  | .clamped => 1
  | .malformed => 2
  | .range => 3
  | .state => 4
  | .locked => 5
  | .oversubscribed => 6
  | .duplicate => 7
  | .noRoom => 8
  | .inUse => 9
  | .overrun => 10
  | .timeout => 11

/-- EdgeMode by the table of chapter 9. -/
def EdgeMode.code : EdgeMode → Nat
  | .anyChange => 0
  | .worsenOnly => 1

/-- CounterMode by section 11.3. -/
def CounterMode.code : CounterMode → Nat
  | .manual => 0
  | .auto => 1

/-- The cause of a LANE-FAULT. -/
def LaneCause.code : LaneCause → Nat
  | .loop => 0
  | .held => 1

/-- The reason of a blocked fallback. -/
def BlockReason.code : BlockReason → Nat
  | .noFallSrc => 0
  | .samePort => 1
  | .duplicate => 2
  | .noRoom => 3
  | .fallbackFailed => 4

/-- The result of an ENTRY-REVERTED report. -/
def RevertResult.code : RevertResult → Nat
  | .done => 0
  | .forced => 1
  | .absent => 2

/-- SpliceOwner: lane in the upper 6 bits and record in the lower 10, FFFEh for REVERT, FFFFh for none (R183). -/
def eOwner : Option Owner → List Byte
  | some (.lane l r) => e2 (l.val * 1024 + r % 1024)
  | some .revert => e2 0xFFFE
  | none => e2 0xFFFF

/-- An outcome list (R183). -/
def eOutcomes (xs : List (FeedId × SpliceResult)) : List Byte := eList (xs.map (fun x => e1 x.1.val ++ e1 x.2.code))

/-- A list of notice marks (R183). -/
def eMarks (xs : List (FeedId × Mark)) : List Byte := eList (xs.map (fun x => e1 x.1.val ++ e1 x.2.code))

/-! ### Report contents (R183, section 9.2) -/

/-- The contents of a report (R183; log entry 11). -/
def Report.contents : Report → List Byte
  | .portState p old new => e1 p.val ++ e1 old.code ++ e1 new.code
  | .portCongestion p entered => e1 p.val ++ e1 (if entered then 0 else 1)
  | .timebaseState old new => e1 old.code ++ e1 new.code
  | .patternState p old new => e1 p.val ++ e1 old.code ++ e1 new.code
  | .spliceNotice l r due => e1 l.val ++ e2 r ++ e2 due.toNat
  | .spliceOutcome l r st os => e1 l.val ++ e2 r ++ e1 st.code ++ eOutcomes os
  | .laneFault l r c => e1 l.val ++ e2 r ++ e1 c.code
  | .entryFallback f e tag failed st (.taken src) =>
    e1 f.val ++ e1 e ++ e2 tag.toNat ++ eSource failed ++ e1 st.code ++ e1 0 ++ eSource src
  | .entryFallback f e tag failed st (.blocked why) =>
    e1 f.val ++ e1 e ++ e2 tag.toNat ++ eSource failed ++ e1 st.code ++ e1 1 ++ e1 why.code
  | .entryReverted f e tag prot res => e1 f.val ++ e1 e ++ e2 tag.toNat ++ eOptSource prot ++ e1 res.code
  | .counterReport n sec cyc per nz =>
    e2 n.toNat ++ e4 sec.toNat ++ e2 cyc.toNat ++ e2 per ++ bytesOfBits 11 (nz.toList ++ List.replicate 7 false)
  | .counterSaturated c n => e1 c ++ e2 n.toNat

/-! ### Monitor cells (R159, R182) -/

/-- A cell the part sends: header with its check, payload filled to 156 bytes (R178, R179). -/
def sentCell (kind : Kind) (tag : Tag) (cont : BitVec 4) (payload : List Byte) : Cell :=
  { hdr := Header.sealed
      { kind := kind, tag := tag, boundary := false, marked := false, disc := false, cont := cont, check := 0 }
    payload := padTo Config.payloadBytes payload }

/-- The prefix of a monitor cell (R182). -/
def monitorHead (unitAddr : BitVec 12) (cls : Nat) : List Byte := e2 unitAddr.toNat ++ e1 cls

/-- The payload of a response (R182). -/
def Response.payload (r : Response) (unitAddr : BitVec 12) : List Byte :=
  monitorHead unitAddr 1 ++ e1 0 ++ e2 r.tag.toNat ++ [r.kind] ++ e1 r.result.code ++ r.contents

/-- The payload of a report (R182). -/
def QueuedReport.payload (q : QueuedReport) (unitAddr : BitVec 12) : List Byte :=
  monitorHead unitAddr 2 ++ eFlag q.lost ++ e2 q.dropCount ++ e1 q.report.kind.code ++ e1 0 ++ e4 q.tick.toNat
    ++ e2 q.cycle.toNat ++ q.report.contents

/-- The MLT sends one cell: the oldest response, else the oldest report, else a monitor fill cell (R158, R159). -/
def State.monitorSend (s : State) : State :=
  match s.mlt.responses with
  | r :: t =>
    { s with
      mlt :=
        { s.mlt with
          responses := t, monCont := s.mlt.monCont + 1,
          sent := some (sentCell .control Config.controlTag s.mlt.monCont (r.payload s.mgmt.unitAddr)) } }
  | [] =>
    match s.mlt.reports with
    | q :: t =>
      { s with
        mlt :=
          { s.mlt with
            reports := t, monCont := s.mlt.monCont + 1,
            sent := some (sentCell .control Config.controlTag s.mlt.monCont (q.payload s.mgmt.unitAddr)) } }
    | [] =>
      { s with
        mlt :=
          { s.mlt with
            monFillCont := s.mlt.monFillCont + 1,
            sent := some (sentCell .fill Config.fillTag s.mlt.monFillCont (monitorHead s.mgmt.unitAddr 0)) } }

end Sys2Proof.Machine
end

