-- ==== Sys2Proof/Machine/CellStore.lean ====
section
/-! DEFINITION. The cell store and the stream table (chapter 3): the free pool, chains and holdings, release, subscription
and withdrawal, take-up with pre-roll, purge, and the storing of an arrival. -/

namespace Sys2Proof.Machine

/-! ### The free pool (R38) -/

/-- The stack as a list, top first. -/
def FreePool.stack (p : FreePool) : List Nat :=
  p.freed ++ (List.range (Config.cellSlots - p.fresh)).map (fun k => p.fresh + k)

/-- Takes the slot on top of the pool; none when the pool is empty. -/
def FreePool.pop (p : FreePool) : Option (Nat × FreePool) :=
  match p.freed with
  | i :: t => some (i, { p with freed := t })
  | [] => if p.fresh < Config.cellSlots then some (p.fresh, { freed := [], fresh := p.fresh + 1 }) else none

/-- Places a freed slot on top of the pool. -/
def FreePool.push (p : FreePool) (i : Nat) : FreePool :=
  if p.freed = [] ∧ i + 1 = p.fresh then { freed := [], fresh := i } else { p with freed := i :: p.freed }

/-! ### Stream records and chains (R40) -/

/-- A stored cell. -/
def Store.cell (st : Store) (slot : Nat) : Option CellRecord := Table.find st.cells slot

/-- A stream record. -/
def Store.stream (st : Store) (k : Nat) : StreamRecord := Table.get StreamRecord.unused st.streams k

/-- Writes a stream record. -/
def Store.setStream (st : Store) (k : Nat) (r : StreamRecord) : Store :=
  { st with streams := Table.set StreamRecord.unused st.streams k r }

/-- A stream record is OPEN (R40). -/
def StreamRecord.isOpen (r : StreamRecord) : Bool := r.subs ≠ 0

/-- The OPEN record of a stream. -/
def Store.openAt (st : Store) (src : Source) : Option Nat :=
  (List.range Config.streamRecords).find? (fun k => (st.stream k).isOpen && (st.stream k).src = src)

/-- The UNUSED record with the lowest index (R43). -/
def Store.unusedAt (st : Store) : Option Nat :=
  (List.range Config.streamRecords).find? (fun k => !(st.stream k).isOpen)

/-- The stream table has room for a stream (R40). -/
def Store.hasRoom (st : Store) (src : Source) : Bool := (st.openAt src).isSome || st.unusedAt.isSome

/-- The OPEN records in index order. -/
def Store.openRecords (st : Store) : List Nat :=
  (List.range Config.streamRecords).filter (fun k => (st.stream k).isOpen)

/-- The slots reached from a slot by the Next fields, at most n of them. -/
def Store.follow (st : Store) : Nat → Option Nat → List Nat
  | 0, _ => []
  | _ + 1, none => []
  | n + 1, some slot => slot :: st.follow n ((st.cell slot).bind CellRecord.next)

/-- The chain of a stream record, oldest cell first (R40). -/
def Store.chain (st : Store) (k : Nat) : List Nat := st.follow (st.stream k).count (st.stream k).head

/-- A feed holds the cell in a slot (section 3.5). -/
def Store.holds (st : Store) (f : FeedId) (slot : Nat) : Bool :=
  match st.cell slot with
  | some c => hasFeed c.holders f
  | none => false

/-- A feed's holding of a stream, oldest cell first (section 3.5). -/
def Store.holding (st : Store) (f : FeedId) (src : Source) : List Nat :=
  match st.openAt src with
  | some k => (st.chain k).filter (st.holds f)
  | none => []

/-- A feed's head cell of a stream (R51). -/
def Store.headCell (st : Store) (f : FeedId) (src : Source) : Option Nat := (st.holding f src).head?

/-- A feed subscribes to a stream. -/
def Store.subscribed (st : Store) (f : FeedId) (src : Source) : Bool :=
  match st.openAt src with
  | some k => hasFeed (st.stream k).subs f
  | none => false

/-! ### Congestion (R50) -/

/-- Cong of a port is set at an overflow discard, and entry into congestion is handed (R50). -/
def State.setCongestion (s : State) (p : PortId) : State :=
  if s.store.cong.get p then s
  else { s with store := { s.store with cong := upd s.store.cong p true } }.handReport (.portCongestion p true)

/-- Cong of a port is judged for clearing (R50). -/
def State.judgeCongestion (s : State) (p : PortId) : State :=
  if s.store.cong.get p ∧ s.store.occ.get p ≤ (s.port p).settings.quota / 2 then
    { s with store := { s.store with cong := upd s.store.cong p false } }.handReport (.portCongestion p false)
  else s

/-! ### Release and freeing (R38, R51, R52) -/

/-- The slot of a cell whose Holders is empty is freed: it leaves its stream's chain at the head, Occ falls and the index
goes on top of the pool (R38, R51). -/
def Store.free (st : Store) (slot : Nat) (c : CellRecord) : Store :=
  let r := st.stream c.stream
  { st with
    cells := Table.erase st.cells slot
    pool := st.pool.push slot
    occ := upd st.occ c.port (st.occ.get c.port - 1) }.setStream c.stream
    { r with head := c.next, tail := if c.next.isSome then r.tail else none, count := r.count - 1 }

/-- A feed leaves the Holders of the cell in a slot, which is freed when the set becomes empty (R52). -/
def State.release (s : State) (f : FeedId) (slot : Nat) : State :=
  match s.store.cell slot with
  | none => s
  | some c =>
    if hasFeed c.holders f then
      if dropFeed c.holders f = 0 then { s with store := s.store.free slot c }.judgeCongestion c.port
      else { s with store := { s.store with cells := Table.put s.store.cells slot { c with holders := dropFeed c.holders f } } }
    else s

/-- A feed releases cells in the order given. -/
def State.releaseAll (s : State) (f : FeedId) (slots : List Nat) : State := slots.foldl (fun s k => s.release f k) s

/-! ### Subscription and withdrawal (R42 to R45) -/

/-- A stream record opened by its first subscriber (R43). -/
def StreamRecord.opened (f : FeedId) (src : Source) (waiting : Bool) : StreamRecord :=
  { StreamRecord.unused with src := src, subs := oneFeed f, waiting := if waiting then oneFeed f else 0 }

/-- A feed joins an OPEN record as reading or as waiting (R42). -/
def StreamRecord.joined (r : StreamRecord) (f : FeedId) (waiting : Bool) : StreamRecord :=
  if hasFeed r.subs f then if waiting then r else { r with waiting := dropFeed r.waiting f }
  else { r with subs := addFeed r.subs f, waiting := if waiting then addFeed r.waiting f else r.waiting }

/-- A subscribe of a feed to a stream; none is NO-ROOM (R42, R43). -/
def State.subscribe (s : State) (f : FeedId) (src : Source) (waiting : Bool) : Option State :=
  match s.store.openAt src with
  | some k => some { s with store := s.store.setStream k ((s.store.stream k).joined f waiting) }
  | none =>
    match s.store.unusedAt with
    | some k => some { s with store := s.store.setStream k (StreamRecord.opened f src waiting) }
    | none => none

/-- A subscribe whose answer NO-ROOM changes nothing and is not looked at: the check before it found room. -/
def State.subscribeFound (s : State) (f : FeedId) (src : Source) (waiting : Bool) : State :=
  (s.subscribe f src waiting).getD s

/-- A feed leaves the subscribers of a record, which closes when none is left (R44, R45). -/
def Store.leave (st : Store) (k : Nat) (f : FeedId) : Store :=
  let r := st.stream k
  if dropFeed r.subs f = 0 then st.setStream k StreamRecord.unused
  else st.setStream k { r with subs := dropFeed r.subs f, waiting := dropFeed r.waiting f }

/-- A withdraw of a feed from a stream: its cells are released oldest first and it leaves the record (R44). -/
def State.withdraw (s : State) (f : FeedId) (src : Source) : State :=
  match s.store.openAt src with
  | some k =>
    if hasFeed (s.store.stream k).subs f then
      let t := s.releaseAll f (s.store.holding f src)
      { t with store := t.store.leave k f }
    else s
  | none => s

/-- A feed withdraws from every stream it holds, in stream-record index order (R83). -/
def State.withdrawAll (s : State) (f : FeedId) : State :=
  (s.store.openRecords.filter (fun k => hasFeed (s.store.stream k).subs f)).foldl
    (fun t k => t.withdraw f (s.store.stream k).src) s

/-! ### Take-up (R54) -/

/-- The cell in a slot has Boundary set. -/
def Store.isBoundary (st : Store) (slot : Nat) : Bool :=
  match st.cell slot with
  | some c => c.hdr.boundary
  | none => false

/-- The part of a holding that is older than its newest boundary cell; nothing when it has none (R54). -/
def Store.preRoll (st : Store) (slots : List Nat) : List Nat :=
  ((slots.reverse.dropWhile (fun k => !st.isBoundary k)).drop 1).reverse

/-- A take-up of a feed's waiting subscription, with pre-roll or without (R54). -/
def State.takeUp (s : State) (f : FeedId) (src : Source) (preRoll : Bool) : State :=
  match s.store.openAt src with
  | none => s.subscribeFound f src false
  | some k =>
    let r := s.store.stream k
    if hasFeed r.subs f then
      if hasFeed r.waiting f then
        let t := { s with store := s.store.setStream k { r with waiting := dropFeed r.waiting f } }
        if preRoll then t.releaseAll f (t.store.preRoll (t.store.holding f src)) else t
      else s
    else s.subscribeFound f src false

/-! ### Purge (R55) -/

/-- Every cell of a stream record is released for every feed, oldest first, and its slot freed (R55). -/
def Store.emptyStream (st : Store) (k : Nat) : Store :=
  let t := (st.chain k).foldl
    (fun t slot => match t.cell slot with
      | some c => t.free slot c
      | none => t) st
  t.setStream k { t.stream k with nextCont := none }

/-- A purge of a port (R55); Cong is judged at it (R50). DESIGN CHOICE, log entry 31: its streams in record-index order. -/
def State.purge (s : State) (p : PortId) : State :=
  let ks := s.store.openRecords.filter (fun k => (s.store.stream k).src.port = p)
  { s with store := ks.foldl Store.emptyStream s.store }.judgeCongestion p

/-! ### Storing an arrival (R46 to R50, R53) -/

/-- The age of the cell in a slot at a 32-bit tick (R53, R88). -/
def Store.age (st : Store) (slot : Nat) (tick : BitVec 32) : Nat :=
  match st.cell slot with
  | some c => (tick - c.arriveTick).toNat
  | none => 0

/-- A feed releases its oldest cells while they are older than an age (R53). -/
def State.trimFeed (s : State) (f : FeedId) (src : Source) (tick : BitVec 32) (maxAge : Nat) : State :=
  s.releaseAll f ((s.store.holding f src).takeWhile (fun k => maxAge < s.store.age k tick))

/-- The waiting-age trim of every feed in a record's Waiting, in feed order (R53). -/
def State.trimWaiting (s : State) (k : Nat) (tick : BitVec 32) : State :=
  let r := s.store.stream k
  (feedList r.waiting).foldl (fun t f => t.trimFeed f r.src tick (s.port r.src.port).settings.maxAge) s

/-- Continuity of a stored arrival is judged and NextCont advances (R49). -/
def State.judgeContinuity (s : State) (p : PortId) (k : Nat) (cont : BitVec 4) : State :=
  let r := s.store.stream k
  let t := { s with store := s.store.setStream k { r with nextCont := some (cont + 1) } }
  if r.nextCont.isSome ∧ r.nextCont ≠ some cont then t.count (.port p .contErr) 1 else t

/-- An arrival discarded as an overflow (R48; COUNTER-SATURATED before PORT-CONGESTION, log entry 29). -/
def State.overflow (s : State) (p : PortId) (k : Nat) (cont : BitVec 4) : State :=
  ({ s with store := s.store.setStream k { s.store.stream k with nextCont := some (cont + 1) } }.count
    (.port p .overflow) 1).setCongestion p

/-- The cell record of an arrival is written in a slot and linked at the tail of its stream (R47). -/
def Store.put (st : Store) (slot : Nat) (pool : FreePool) (k : Nat) (p : PortId) (hdr : Header) (payload : List Byte)
    (tick : BitVec 32) : Store :=
  let r := st.stream k
  let cells := match r.tail with
    | some old =>
      match st.cell old with
      | some c => Table.put st.cells old { c with next := some slot }
      | none => st.cells
    | none => st.cells
  { st with
    cells := Table.put cells slot
      { hdr := hdr, payload := payload, arriveTick := tick, port := p, stream := k, next := none, holders := r.subs }
    pool := pool
    occ := upd st.occ p (st.occ.get p + 1) }.setStream k
    { r with head := if r.tail.isSome then r.head else some slot, tail := some slot, count := r.count + 1 }

/-- A programme cell is offered to the store by its port (R46; COUNTER-SATURATED before PORT-CONGESTION, log entry 29). -/
def State.offerCell (s : State) (p : PortId) (hdr : Header) (payload : List Byte) : State :=
  match s.store.openAt { port := p, tag := hdr.tag } with
  | none => s
  | some k =>
    match s.store.pool.pop with
    | none => s.overflow p k hdr.cont
    | some (slot, pool) =>
      if s.store.occ.get p < (s.port p).settings.quota then
        let t := { s with store := s.store.put slot pool k p hdr payload s.stamp }
        ((t.judgeContinuity p k hdr.cont).judgeCongestion p).trimWaiting k s.stamp
      else s.overflow p k hdr.cont

end Sys2Proof.Machine
end

