-- ==== Sys2Proof/Machine/Schedule.lean ====
section
/-! DEFINITION. The splice schedule (chapter 6): the needs of a feed (R41, R116), notice, arming, the walk of a lane along
its chain, completion, feed-stop. -/

namespace Sys2Proof.Machine

/-! ### Needs (R41, R116) -/

/-- A feed has a reading need for a stream: a live entry has it as CurSrc (R41). -/
def State.readingNeed (s : State) (f : FeedId) (src : Source) : Bool :=
  s.feedNeeds f && (s.liveEntries f).any (fun e => (s.live f e).curSrc = some src)

/-- A live entry of the feed in OUT-WAIT has the stream as NewSrc (R41). -/
def State.entryWaits (s : State) (f : FeedId) (src : Source) : Bool :=
  (s.liveEntries f).any (fun e => (s.live f e).estate = .outWait && (s.live f e).newSrc = some src)

/-- A record holds a waiting need for a feed: it is in use, its action is SWITCH, the feed's mark is HELD and the feed has no
outcome yet (R41, R116; STARTED is an outcome, log entry 9). -/
def SpliceRecord.needs (r : SpliceRecord) (f : FeedId) : Bool :=
  r.inUse && hasFeed r.feeds f && r.action = .switch && r.markOf f = some .held && r.outcomeOf f = none

/-- A record in use holds a waiting need of the feed for a stream (R41). -/
def State.recordWaits (s : State) (f : FeedId) (src : Source) : Bool :=
  s.ssu.records.any (fun kr => kr.2.needs f && kr.2.newSrc = src)

/-- A feed has a waiting need for a stream (R41). -/
def State.waitingNeed (s : State) (f : FeedId) (src : Source) : Bool :=
  s.feedNeeds f && (s.entryWaits f src || s.recordWaits f src)

/-- A reason of a feed's subscription has ended: what remains decides what the stream table is handed (R116). reading says
whether the reason that ended was a reading one. -/
def State.endNeed (s : State) (f : FeedId) (src : Source) (reading : Bool) : State :=
  if s.readingNeed f src then s
  else if s.waitingNeed f src then
    if reading then (s.withdraw f src).subscribeFound f src true else s
  else s.withdraw f src

/-- The needs that a record held by its HELD marks have ended: each is dealt with in feed order (R116). The record's status
or outcomes have been written before. -/
def State.endMarks (s : State) (r : SpliceRecord) (fs : List FeedId) : State :=
  (fs.filter (fun f => r.markOf f = some .held)).foldl (fun t f => t.endNeed f r.newSrc false) s

/-! ### Notice (R115) -/

/-- The mark of one target feed at notice, with its waiting subscribe (R115). -/
def State.noticeFeed (s : State) (src : Source) (f : FeedId) : State × Mark :=
  if s.feedNeeds f then
    match s.subscribe f src true with
    | some t => (t, .held)
    | none => (s, .noRoom)
  else (s, .stopped)

/-- The marks of the target feeds of a SWITCH in feed order (R115). -/
def State.noticeFeeds (s : State) (src : Source) : List FeedId → State × List (FeedId × Mark)
  | [] => (s, [])
  | f :: t =>
    let a := s.noticeFeed src f
    let b := State.noticeFeeds a.1 src t
    (b.1, (f, a.2) :: b.2)

/-- Notice is given to a record (R115). -/
def State.giveNotice (s : State) (l : LaneId) (r : Nat) : State :=
  let x := s.record r
  let a := (s.setRecord r { x with status := .noticed }).handReport (.spliceNotice l r x.dueCycle)
  if x.action = .switch then
    let b := a.noticeFeeds x.newSrc (feedList x.feeds)
    b.1.setRecord r { x with status := .noticed, marks := b.2 }
  else a

/-! ### Arming (R117 to R120) -/

/-- The source a splice record switches a target entry to (R117). -/
def State.armSource (s : State) (x : SpliceRecord) (f : FeedId) (e : Nat) : Source :=
  if x.action = .returnHome then (s.entry f e).homeSrc else x.newSrc

/-- The feed's shares with the target entry's Share replaced (R117 check 8). -/
def State.sharesWith (s : State) (f : FeedId) (e : Nat) (share : Nat) : Nat :=
  ((s.liveEntries f).map (fun k => if k = e then share else (s.entry f k).share)).sum

/-- The outcome of a target feed at arming: the first check that applies (R117). -/
def State.armOutcome (s : State) (x : SpliceRecord) (f : FeedId) : SpliceResult :=
  if s.feedRunning f then
    match s.entryOfTag f x.outTag with
    | none => .noEntry
    | some e =>
      if (s.live f e).busy then .busy
      else if x.action = .share then
        if x.newShare = (s.entry f e).share then .unchanged
        else if s.checkCost < s.sharesWith f e x.newShare then .oversub
        else .done
      else
        let src := s.armSource x f e
        if x.markOf f = some .noRoom ∨ (¬ s.store.subscribed f src ∧ ¬ s.store.hasRoom src) then .noRoom
        else if ¬ s.portLive src.port then .absent
        else if s.sourceTaken f e src then .duplicate
        else if (s.live f e).curSrc = some src then .unchanged
        else .started
  else .abandoned

/-- A splice begins on the target entry (R118). -/
def State.beginSplice (s : State) (l : LaneId) (r : Nat) (x : SpliceRecord) (f : FeedId) (e : Nat) : State :=
  let src := s.armSource x f e
  let v := s.live f e
  let t := s.setLive f e
    { v with
      prevSrc := v.curSrc, newSrc := some src, windowLeft := x.window, onMiss := some x.onMiss,
      owner := some (.lane l r), estate := .outWait, revertLeft := none }
  if x.markOf f = some .held then t else t.subscribeFound f src true

/-- A SHARE sets the target entry's Share, and that of an unlocked shadow's entry with the tag (R119, R66). DESIGN CHOICE, log
entry 32: where several used shadow entries have the tag, only the one with the lowest index changes. -/
def State.setShare (s : State) (f : FeedId) (e : Nat) (t : Tag) (share : Nat) : State :=
  let m := s.map f
  let a := m.setBank m.activeBank (setBankEntry m.active e { bankEntry m.active e with share := share })
  let k := (usedEntries a.shadow).find? (fun k => (bankEntry a.shadow k).outTag = t)
  match k with
  | some j =>
    if m.locked then s.setMap f a
    else s.setMap f (a.setBank m.activeBank.other (setBankEntry a.shadow j { bankEntry a.shadow j with share := share }))
  | none => s.setMap f a

/-- The effect of an outcome decided at arming on the target entry (R117). -/
def State.armEffect (s : State) (l : LaneId) (r : Nat) (x : SpliceRecord) (f : FeedId) (o : SpliceResult) : State :=
  match s.entryOfTag f x.outTag with
  | some e =>
    if o = .started then s.beginSplice l r x f e
    else if o = .done then s.setShare f e x.outTag x.newShare
    else s
  | none => s

/-- One target feed is taken at arming: its outcome is entered at its turn (R117). -/
def State.armFeed (s : State) (l : LaneId) (r : Nat) (f : FeedId) : State :=
  let x := s.record r
  let o := s.armOutcome x f
  let t := s.armEffect l r x f o
  t.setRecord r { x with outcomes := x.outcomes ++ [(f, o)] }

/-- The arming of a record: every target feed in feed order, the end of the needs of feeds with no splice begun, and the
record ARMED or COMPLETE (R117, R120). -/
def State.arm (s : State) (l : LaneId) (r : Nat) : State :=
  let fs := feedList (s.record r).feeds
  let a := fs.foldl (fun t f => t.armFeed l r f) s
  let x := a.record r
  let b := a.endMarks x (fs.filter (fun f => x.outcomeOf f ≠ some .started))
  b.setRecord r { x with status := if x.startedCount = 0 then .complete else .armed }

/-! ### The walk of a lane (R111 to R114, R128) -/

/-- A lane comes to rest on its record (R111). -/
def State.restLane (s : State) (l : LaneId) (st : LaneState) : State :=
  s.setLane l { s.lane l with state := st, linkRun := 0 }

/-- A lane becomes STOPPED; CurRec and LinkRun are kept. -/
def State.stopLaneNow (s : State) (l : LaneId) : State := s.setLane l { s.lane l with state := .stopped }

/-- A lane faults: it becomes STOPPED on its record and LANE-FAULT is handed (R112, R113). -/
def State.faultLane (s : State) (l : LaneId) (r : Nat) (c : LaneCause) : State :=
  (s.stopLaneNow l).handReport (.laneFault l r c)

/-- A lane leaves a record at once: it moves to NextRec with LinkRun raised, or faults by the loop guard, or stops on a final
record (R111, R112, log entry 19). The second part names the record it reaches next. -/
def State.leaveRecord (s : State) (l : LaneId) (r : Nat) : State × Option Nat :=
  let x := s.record r
  let n := s.lane l
  if x.goesOn then
    if Config.loopGuard ≤ n.linkRun then (s.faultLane l r .loop, none)
    else (s.setLane l { n with linkRun := n.linkRun + 1 }, some x.nextRec)
  else (s.stopLaneNow l, none)

/-- A record is found past its due cycle: EXPIRED, the needs of its marks end, SPLICE-OUTCOME is handed and the lane leaves it
(R114). DESIGN CHOICE, log entry 29: a PORT-CONGESTION that the withdraws cause comes before the SPLICE-OUTCOME (R161). -/
def State.expireRecord (s : State) (l : LaneId) (r : Nat) : State × Option Nat :=
  let x := s.record r
  let a := (s.setRecord r { x with status := .expired }).endMarks x (feedList x.feeds)
  (a.handReport (.spliceOutcome l r .expired [])).leaveRecord l r

/-- A record due now is armed; completed at its arming, it hands SPLICE-OUTCOME and the lane leaves it at once (R117, R120,
R128; a PORT-CONGESTION by ended needs before the SPLICE-OUTCOME, log entry 29). -/
def State.armRecord (s : State) (l : LaneId) (r : Nat) : State × Option Nat :=
  let a := s.arm l r
  if (a.record r).status = .armed then (a.restLane l .armed, none)
  else (a.handReport (.spliceOutcome l r .complete (a.record r).outcomes)).leaveRecord l r

/-- A lane evaluates a record afresh on its distance (R114, R104). -/
def State.evaluateRecord (s : State) (l : LaneId) (r : Nat) : State × Option Nat :=
  let x := s.record r
  let d := s.distance x.dueCycle
  let a := s.setRecord r { x with status := .pending, outcomes := [], marks := [] }
  if 32768 ≤ d then a.expireRecord l r
  else if d = 0 then a.armRecord l r
  else if d ≤ x.noticeLead then ((a.giveNotice l r).restLane l .noticed, none)
  else (a.restLane l .waiting, none)

/-- A lane reaches a record and handles it by Carries and Continue (R111, R113). -/
def State.reachRecord (s : State) (l : LaneId) (r : Nat) : State × Option Nat :=
  let a := s.setLane l { s.lane l with curRec := r }
  let x := a.record r
  match x.carries with
  | .link => if x.goesOn then a.leaveRecord l r else (a.restLane l .parked, none)
  | .action => if x.inUse then (a.faultLane l r .held, none) else a.evaluateRecord l r

/-- The moves of one walk: the lane reaches a record and goes on while it leaves records at once. The loop guard ends every
walk within 17 records (R112); n bounds them. -/
def State.walk : Nat → LaneId → Nat → State → State
  | 0, _, _, s => s
  | n + 1, l, r, s =>
    match s.reachRecord l r with
    | (t, some next) => State.walk n l next t
    | (t, none) => t

/-- A lane reaches a record and walks on (R111). -/
def State.reach (s : State) (l : LaneId) (r : Nat) : State := State.walk (Config.loopGuard + 1) l r s

/-- A lane walks on from a record it has handled. -/
def State.walkOn (l : LaneId) (a : State × Option Nat) : State :=
  match a with
  | (t, some next) => t.reach l next
  | (t, none) => t

/-- A lane in WAITING or NOTICED evaluates its record at a cycle boundary (R114). A WAITING lane finds a record that another
lane has put in use (R113) or evaluates it afresh. -/
def State.evaluateLane (s : State) (l : LaneId) : State :=
  let n := s.lane l
  match n.state with
  | .waiting => s.reach l n.curRec
  | .noticed =>
    let d := s.distance (s.record n.curRec).dueCycle
    if 32768 ≤ d then State.walkOn l (s.expireRecord l n.curRec)
    else if d = 0 then State.walkOn l (s.armRecord l n.curRec)
    else s
  | _ => s

/-! ### Outcomes and completion (R126 to R128) -/

/-- A STARTED item of a list takes a final outcome; a final one is not changed (R105). -/
def finishItem (f : FeedId) (o : SpliceResult) (xs : List (FeedId × SpliceResult)) : List (FeedId × SpliceResult) :=
  xs.map (fun x => if x.1 = f ∧ x.2 = .started then (f, o) else x)

/-- The lane that stands in ARMED or STOPPING on a record: the one that armed it (R128). -/
def State.armedLane (s : State) (r : Nat) : Option LaneId :=
  allLanes.find? (fun l => ((s.lane l).state = .armed || (s.lane l).state = .stopping) && (s.lane l).curRec = r)

/-- A lane's record has completed: SPLICE-OUTCOME is handed and the lane acts by its state and Continue. A lane that moves on
reaches its next record when the event that completed the record has been applied whole (R128, log entry 8). -/
def State.leaveCompleted (s : State) (l : LaneId) (r : Nat) : State :=
  let x := s.record r
  let a := s.handReport (.spliceOutcome l r .complete x.outcomes)
  if (s.lane l).state = .armed ∧ x.goesOn then { a with due := { a.due with walks := a.due.walks ++ [l] } }
  else a.stopLaneNow l

/-- A record takes new outcomes, and completes when they leave no item STARTED (R128). -/
def State.setOutcomes (s : State) (r : Nat) (os : List (FeedId × SpliceResult)) : State :=
  let x := { s.record r with outcomes := os }
  if x.status = .armed ∧ x.startedCount = 0 then
    let a := s.setRecord r { x with status := .complete }
    match s.armedLane r with
    | some l => a.leaveCompleted l r
    | none => a
  else s.setRecord r x

/-- The SMU hands the SSU the outcome of a feed's splice (R122, R124 to R126), which may complete the record (R128). -/
def State.enterOutcome (s : State) (r : Nat) (f : FeedId) (o : SpliceResult) : State :=
  if (s.record r).status = .armed then s.setOutcomes r (finishItem f o (s.record r).outcomes) else s

/-- The end of a splice goes to its owner: an outcome for a lane record, ENTRY-REVERTED for a revert (R122, R139, R141). -/
def State.endSplice (s : State) (f : FeedId) (e : Nat) (v : Live) (o : SpliceResult) (rev : RevertResult) : State :=
  match v.owner with
  | some (.lane _ r) => s.enterOutcome r f o
  | some .revert => s.handReport (.entryReverted f e (s.entry f e).outTag v.protSrc rev)
  | none => s

/-- A lane leaves its completed record with LinkRun 0 for NextRec (R128). -/
def State.walkFrom (s : State) (l : LaneId) : State :=
  (s.setLane l { s.lane l with linkRun := 0 }).reach l (s.record (s.lane l).curRec).nextRec

/-- The event has been applied whole: the lanes whose records it completed move on, in the order of completion (R128, log
entry 8). -/
def State.walkLanes (s : State) : State :=
  s.due.walks.foldl State.walkFrom { s with due := { s.due with walks := [] } }

/-- One record deals with a feed-stop (R127). -/
def State.stopRecord (f : FeedId) (s : State) (r : Nat) : State :=
  let x := s.record r
  if hasFeed x.feeds f then
    match x.status with
    | .noticed =>
      s.setRecord r { x with marks := x.marks.map (fun m => if m.1 = f ∧ m.2 = .held then (f, .stopped) else m) }
    | .armed => s.setOutcomes r (finishItem f .abandoned x.outcomes)
    | _ => s
  else s

/-- A feed-stop (R127): every record in NOTICED or ARMED that targets the feed, in record-index order (log entry 16). -/
def State.feedStop (s : State) (f : FeedId) : State := (Table.keys s.ssu.records).foldl (State.stopRecord f) s

end Sys2Proof.Machine
end

