-- ==== Sys2Proof/Machine/Protection.lean ====
section
/-! DEFINITION. What the SMU does to live entries: out-point, in-point and window expiry (chapter 6), fallback, the failure
and the return of a port, the revert (chapter 7). Outcomes are entered in records here, which complete at their last one; the
lanes that move on by it do so when the step that applies the event calls State.walkLanes (log entry 8). -/

namespace Sys2Proof.Machine

/-- A subscribe to a source that may be none. -/
def State.endNeedOf (s : State) (f : FeedId) (src : Option Source) (reading : Bool) : State :=
  match src with
  | some x => s.endNeed f x reading
  | none => s

/-! ### Fallback (R132, R133) -/

/-- The withdraw that a fallback would hand closes the record of the present source: the feed is its last subscriber and no
other reason of the feed holds it (R132). without is the state in which the entry has left the source. -/
def State.closesRecord (without : State) (f : FeedId) (src : Source) : Bool :=
  match without.store.openAt src with
  | some k => (without.store.stream k).subs = oneFeed f && !without.readingNeed f src && !without.waitingNeed f src
  | none => false

/-- The reason a fallback of an entry is blocked at a failure of a port, none when it is usable (R132). lost is the source
that the fallback gives up. -/
def State.fallbackBlock (s : State) (f : FeedId) (e : Nat) (p : PortId) (lost : Source) : Option BlockReason :=
  match (s.entry f e).fallSrc with
  | none => some .noFallSrc
  | some src =>
    if src.port = p then some .samePort
    else if s.sourceTaken f e src then some .duplicate
    else if s.store.hasRoom src ∨ (s.setLive f e { s.live f e with curSrc := none }).closesRecord f lost then none
    else some .noRoom

/-- The steps of a fallback taken (R133): the entry leaves the lost source, takes FallSrc and keeps the lost source as
ProtSrc. A PORT-CONGESTION that the withdraw causes comes before the ENTRY-FALLBACK (log entry 29). -/
def State.takeFallback (s : State) (f : FeedId) (e : Nat) (lost : Source) : State :=
  match (s.entry f e).fallSrc with
  | none => s
  | some src =>
    let a := s.setLive f e
      { s.live f e with
        protSrc := some lost, curSrc := some src, estate := .fallback, discPending := true, revertLeft := none }
    ((a.endNeed f lost true).subscribeFound f src false).handReport
      (.entryFallback f e (s.entry f e).outTag lost (s.port lost.port).state (.taken src))

/-- The ENTRY-FALLBACK report of a blocked fallback (R133, R134, R136). -/
def State.reportBlocked (s : State) (f : FeedId) (e : Nat) (lost : Source) (why : BlockReason) : State :=
  s.handReport (.entryFallback f e (s.entry f e).outTag lost (s.port lost.port).state (.blocked why))

/-- An ON-AIR entry whose source lies on a failed port falls back or is reported blocked (R133). -/
def State.failOnAir (s : State) (f : FeedId) (e : Nat) (lost : Source) : State :=
  match s.fallbackBlock f e lost.port lost with
  | none => s.takeFallback f e lost
  | some why => s.reportBlocked f e lost why

/-! ### The end of a splice by a lost new source (R136) -/

/-- The live fields after a splice has ended: no splice in progress. -/
def Live.clearSplice (v : Live) : Live :=
  { v with newSrc := none, prevSrc := none, onMiss := none, windowLeft := 0, owner := none }

/-- An entry in IN-WAIT has lost its new source: the splice ends with ABSENT and the fallback is judged afresh (R136). DESIGN
CHOICE, log entry 29: the SPLICE-OUTCOME or ENTRY-REVERTED of its end comes before a PORT-CONGESTION that the fallback's withdraw
causes, and a SPLICE-OUTCOME before the ENTRY-FALLBACK (R161). -/
def State.loseNewSource (s : State) (f : FeedId) (e : Nat) : State :=
  let v := s.live f e
  match v.curSrc with
  | none => s
  | some lost =>
    let a := (s.endSplice f e v .absent .absent).setLive f e v.clearSplice
    match a.fallbackBlock f e lost.port lost with
    | none => a.takeFallback f e lost
    | some why =>
      (a.setLive f e
        { v.clearSplice with estate := .onAir, discPending := true, protSrc := none, revertLeft := none }).reportBlocked
        f e lost why

/-! ### Out-point and in-point (R121, R122) -/

/-- The four steps of an out-point (R121). -/
def State.takeOutPoint (s : State) (f : FeedId) (e : Nat) : State :=
  let v := s.live f e
  match v.newSrc with
  | none => s
  | some new =>
    let a := s.setLive f e { v with curSrc := some new, estate := .inWait }
    (a.endNeedOf f v.curSrc true).takeUp f new true

/-- An out-point, and the end of the splice at once when the port of the new source is not LIVE (R121, R135, R136). DESIGN CHOICE,
log entry 29: a PORT-CONGESTION that the four steps cause comes before the reports of that end (R161). -/
def State.outPoint (s : State) (f : FeedId) (e : Nat) : State :=
  let a := s.takeOutPoint f e
  match (s.live f e).newSrc with
  | none => s
  | some new => if s.portLive new.port then a else a.loseNewSource f e

/-- The live fields of an entry put ON-AIR on its new source with DiscPending set (R122, R124). -/
def Live.landed (v : Live) : Live :=
  { v.clearSplice with estate := .onAir, discPending := true, protSrc := none, revertLeft := none }

/-- An in-point (R122, R139). -/
def State.inPoint (s : State) (f : FeedId) (e : Nat) : State :=
  let v := s.live f e
  (s.endSplice f e v .done .done).setLive f e v.landed

/-! ### Window expiry (R123 to R125) -/

/-- RevertLeft of an entry that a CANCEL expiry returns to FALLBACK (R125, R137). -/
def State.revertCount (s : State) (f : FeedId) (e : Nat) (prot : Source) : Option Nat :=
  if (s.entry f e).autoRevert ∧ s.portLive prot.port then some (s.entry f e).revertDelay else none

/-- The entry is put on its new source as it stands (R124). DESIGN CHOICE, log entry 29: the ENTRY-REVERTED or SPLICE-OUTCOME of
its end comes before a PORT-CONGESTION that leaving the old source causes (R139, R161). -/
def State.forceExpiry (s : State) (f : FeedId) (e : Nat) : State :=
  let v := s.live f e
  let a := s.endSplice f e v .forced .forced
  match v.estate, v.newSrc with
  | .outWait, some new =>
    let b := a.setLive f e { v.landed with curSrc := some new }
    (b.endNeedOf f v.curSrc true).takeUp f new false
  | _, _ => a.setLive f e v.landed

/-- The live fields of an entry that returns to the source it had before arming (R125). -/
def State.returned (s : State) (f : FeedId) (e : Nat) (v : Live) : Live :=
  match v.protSrc with
  | some prot => { v.clearSplice with estate := .fallback, revertLeft := s.revertCount f e prot }
  | none => { v.clearSplice with estate := .onAir }

/-- The entry returns to PrevSrc, or is forced in IN-WAIT when PrevSrc finds no room (R125; the SPLICE-OUTCOME before a
PORT-CONGESTION, log entry 29). -/
def State.cancelExpiry (s : State) (f : FeedId) (e : Nat) : State :=
  let v := s.live f e
  match v.estate with
  | .outWait =>
    ((s.endSplice f e v .cancelled .absent).setLive f e (s.returned f e v)).endNeedOf f v.newSrc false
  | .inWait =>
    match v.prevSrc with
    | none => s.forceExpiry f e
    | some prev =>
      match s.subscribe f prev false with
      | none => s.forceExpiry f e
      | some t =>
        ((t.endSplice f e v .cancelled .absent).setLive f e
          { s.returned f e v with curSrc := some prev, discPending := true }).endNeedOf f v.newSrc true
  | _ => s

/-- The window of an entry has reached 0 and its splice ends as OnMiss gives (R123). -/
def State.expireWindow (s : State) (f : FeedId) (e : Nat) : State :=
  match (s.live f e).onMiss with
  | some .force => s.forceExpiry f e
  | some .cancel => s.cancelExpiry f e
  | none => s

/-! ### Failure and return of a port (R131 to R137, R139) -/

/-- A failure of the port of ProtSrc during a revert in OUT-WAIT (R139). DESIGN CHOICE, log entry 29: a PORT-CONGESTION that the
withdraw causes comes before the ENTRY-REVERTED (R161). -/
def State.revertAbsent (s : State) (f : FeedId) (e : Nat) : State :=
  let v := s.live f e
  ((s.setLive f e { v.clearSplice with estate := .fallback, revertLeft := none }).endNeedOf f v.newSrc false).handReport
    (.entryReverted f e (s.entry f e).outTag v.protSrc .absent)

/-- An entry in FALLBACK at a failure of a port (R134). -/
def State.failFallback (s : State) (f : FeedId) (e : Nat) (p : PortId) : State :=
  let v := s.live f e
  let a := if v.protSrc.any (fun x => x.port = p) then s.setLive f e { v with revertLeft := none } else s
  match v.curSrc with
  | some cur => if cur.port = p then a.reportBlocked f e cur .fallbackFailed else a
  | none => a

/-- An entry in OUT-WAIT at a failure of a port (R135, R139; log entry 18). -/
def State.failOutWait (s : State) (f : FeedId) (e : Nat) (p : PortId) : State :=
  let v := s.live f e
  if v.curSrc.any (fun x => x.port = p) then s.outPoint f e
  else if v.owner = some .revert ∧ v.newSrc.any (fun x => x.port = p) then s.revertAbsent f e
  else s

/-- One live entry at a failure of a port, by its state and sources (R131). -/
def State.failEntry (p : PortId) (f : FeedId) (s : State) (e : Nat) : State :=
  let v := s.live f e
  match v.estate with
  | .onAir =>
    match v.curSrc with
    | some cur => if cur.port = p then s.failOnAir f e cur else s
    | none => s
  | .fallback => s.failFallback f e p
  | .outWait => s.failOutWait f e p
  | .inWait => if v.curSrc.any (fun x => x.port = p) then s.loseNewSource f e else s
  | .vacant => s

/-- One live entry at a return of a port (R137). -/
def State.returnEntry (p : PortId) (f : FeedId) (s : State) (e : Nat) : State :=
  let v := s.live f e
  if v.estate = .fallback ∧ (s.entry f e).autoRevert ∧ v.protSrc.any (fun x => x.port = p) then
    s.setLive f e { v with revertLeft := some (s.entry f e).revertDelay }
  else s

/-- The feeds in RUNNING in feed order and within each the live entries in index order (R131). -/
def State.overRunning (s : State) (g : FeedId → State → Nat → State) : State :=
  allFeeds.foldl (fun t f => if t.feedRunning f then (t.liveEntries f).foldl (g f) t else t) s

/-- A failure of a port, applied whole; the lanes of the records it completes move on after it (R131, log entry 8). -/
def State.portFailed (s : State) (p : PortId) : State :=
  (s.overRunning (State.failEntry p)).walkLanes

/-- A return of a port (R131, R137). -/
def State.portReturned (s : State) (p : PortId) : State := s.overRunning (State.returnEntry p)

/-- A change of PortState is handed to the MLT and to the SMU (R32, log entry 15). The new state stands in the port. -/
def State.handPortChange (s : State) (p : PortId) (old : PortState) : State :=
  let new := (s.port p).state
  let a := s.handReport (.portState p old new)
  if old = .live then a.portFailed p else if new = .live then a.portReturned p else a

/-! ### The revert (R137, R138) -/

/-- A revert may start (R138). -/
def State.revertAllowed (s : State) (f : FeedId) (e : Nat) (prot : Source) : Bool :=
  !s.sourceTaken f e prot && (s.store.subscribed f prot || s.store.hasRoom prot)

/-- The start of a revert toward ProtSrc (R138). -/
def State.startRevert (s : State) (f : FeedId) (e : Nat) (prot : Source) : State :=
  let v := s.live f e
  (s.setLive f e
    { v with
      prevSrc := v.curSrc, newSrc := some prot, windowLeft := Config.revertWindow, onMiss := some .force,
      owner := some .revert, revertLeft := none, estate := .outWait }).subscribeFound f prot true

/-- A try to start the revert of an entry whose RevertLeft is 0 (R138). -/
def State.tryRevert (s : State) (f : FeedId) (e : Nat) : State :=
  match (s.live f e).protSrc with
  | some prot => if s.revertAllowed f e prot then s.startRevert f e prot else s
  | none => s

/-- The revert countdown of an entry at a cycle boundary, and the try to start at 0 (R137, R138). -/
def State.countRevert (s : State) (f : FeedId) (e : Nat) : State :=
  let v := s.live f e
  match v.estate, v.revertLeft with
  | .fallback, some n =>
    let a := s.setLive f e { v with revertLeft := some (n - 1) }
    if n ≤ 1 then a.tryRevert f e else a
  | _, _ => s

end Sys2Proof.Machine
end

