-- ==== Sys2Proof/Machine/Feeds.lean ====
section
/-! DEFINITION. The feed composers: the departure at a slot boundary (sections 5.2 to 5.4), pattern cells (chapter 10), and
the changes of feed state (section 5.1). -/

namespace Sys2Proof.Machine

/-! ### Head evaluation (R88 to R90) -/

/-- MaxAge of a port. -/
def State.maxAge (s : State) (p : PortId) : Nat := (s.port p).settings.maxAge

/-- The head cell of a live entry: the feed's head cell of its CurSrc (R88). -/
def State.headOf (s : State) (f : FeedId) (e : Nat) : Option Nat :=
  (s.live f e).curSrc.bind (s.store.headCell f)

/-- The cells a live entry may reach: the feed's holding of its CurSrc, oldest first. -/
def State.cellsOf (s : State) (f : FeedId) (e : Nat) : List Nat :=
  match (s.live f e).curSrc with
  | some src => s.store.holding f src
  | none => []

/-- The cell in a slot is older than MaxAge of its port at a departure tick (R88). -/
def State.isStale (s : State) (slot : Nat) (tick : BitVec 32) : Bool :=
  match s.store.cell slot with
  | some c => s.maxAge c.port < (tick - c.arriveTick).toNat
  | none => false

/-- A stale cell is released for the feed and counted in STALE of its port (R88). DESIGN CHOICE, log entry 29: a PORT-CONGESTION
by the release comes before a COUNTER-SATURATED by the count (R161). -/
def State.dropStale (s : State) (f : FeedId) (slot : Nat) : State :=
  match s.store.cell slot with
  | some c => (s.release f slot).count (.port c.port .stale) 1
  | none => s

/-- The stale cells at the head of a run of held cells are released (R88). -/
def State.dropStaleRun (f : FeedId) (tick : BitVec 32) : List Nat → State → State
  | [], s => s
  | k :: t, s => if s.isStale k tick then State.dropStaleRun f tick t (s.dropStale f k) else s

/-- The age test of an entry's head cells (R88). -/
def State.freshen (s : State) (f : FeedId) (e : Nat) (tick : BitVec 32) : State :=
  State.dropStaleRun f tick (s.cellsOf f e) s

/-- In IN-WAIT, stale cells and cells without Boundary are released up to the first fresh boundary cell; the flag says
whether there is one (R90). -/
def State.seekRun (f : FeedId) (tick : BitVec 32) : List Nat → State → State × Bool
  | [], s => (s, false)
  | k :: t, s =>
    if s.isStale k tick then State.seekRun f tick t (s.dropStale f k)
    else if s.store.isBoundary k then (s, true)
    else State.seekRun f tick t (s.release f k)

/-- The evaluation of an entry in IN-WAIT: in-wait discards and the in-point (R90, R122). -/
def State.evaluateInWait (s : State) (f : FeedId) (e : Nat) (tick : BitVec 32) : State :=
  let a := State.seekRun f tick (s.cellsOf f e) s
  if a.2 then a.1.inPoint f e else a.1

/-- The head cell of an entry has Boundary set. -/
def State.headBoundary (s : State) (f : FeedId) (e : Nat) : Bool :=
  match s.headOf f e with
  | some k => s.store.isBoundary k
  | none => false

/-- Head evaluation of one live entry (R88 to R90). An out-point is followed by the evaluation of the entry in the state it
leaves (R89). -/
def State.evaluateHead (tick : BitVec 32) (f : FeedId) (s : State) (e : Nat) : State :=
  match (s.live f e).estate with
  | .vacant => s
  | .onAir => s.freshen f e tick
  | .fallback => s.freshen f e tick
  | .inWait => s.evaluateInWait f e tick
  | .outWait =>
    let a := s.freshen f e tick
    if a.headBoundary f e then
      let b := a.outPoint f e
      if (b.live f e).estate = .inWait then b.evaluateInWait f e tick else b.freshen f e tick
    else a

/-! ### Accrual and selection (R87, R91) -/

/-- Accrual of one live entry (R87). -/
def State.accrue (f : FeedId) (s : State) (e : Nat) : State :=
  let v := s.live f e
  s.setLive f e { v with credit := min (v.credit + (s.entry f e).share) (2 * s.unitCost) }

/-- A live entry is eligible after head evaluation (R91). -/
def State.eligible (s : State) (f : FeedId) (e : Nat) : Bool :=
  (s.headOf f e).isSome && (s.live f e).estate ≠ .inWait && 0 ≤ (s.live f e).credit

/-- The better of two entries: the greater credit, the earlier on ties (R91). -/
def State.better (s : State) (f : FeedId) (best : Option Nat) (e : Nat) : Option Nat :=
  match best with
  | some b => if (s.live f b).credit < (s.live f e).credit then some e else some b
  | none => some e

/-- The selection arbiter (R91). -/
def State.select (s : State) (f : FeedId) : Option Nat :=
  ((s.liveEntries f).filter (s.eligible f)).foldl (s.better f) none

/-! ### The departing cell (R95 to R99) -/

/-- The raw correction E: residence minus NomDelay (R98). -/
def rawCorrection (residence nomDelay : Nat) : Int := residence - nomDelay

/-- The correction K: E limited to JitLimit (R98). -/
def limitedCorrection (raw : Int) (jitLimit : Nat) : Int :=
  if raw < -(jitLimit : Int) then -(jitLimit : Int) else if (jitLimit : Int) < raw then jitLimit else raw

/-- The time mark in payload bytes 0 to 4 (R179). -/
def markOf (payload : List Byte) : BitVec 40 := BitVec.ofNat 40 (fieldAt payload 0 5)

/-- The payload with its time mark moved by K, mod 2^40 (R98). -/
def movedMark (payload : List Byte) (k : Int) : List Byte :=
  bytesOf 5 (markOf payload + BitVec.ofInt 40 k).toNat ++ payload.drop 5

/-- The header of a programme cell sent for an entry (R95). -/
def departHeader (h : Header) (tag : Tag) (cont : BitVec 4) (discPending : Bool) : Header :=
  Header.sealed
    { kind := .programme, tag := tag, boundary := h.boundary, marked := h.marked,
      disc := h.disc || (discPending && h.marked), cont := cont, check := 0 }

/-- E of a stored cell at a departure tick, under the settings of its arrival port (R98). -/
def State.rawOf (s : State) (c : CellRecord) (tick : BitVec 32) : Int :=
  rawCorrection (tick - c.arriveTick).toNat (s.port c.port).settings.nomDelay

/-- K of a stored cell at a departure tick (R98). -/
def State.correctionOf (s : State) (c : CellRecord) (tick : BitVec 32) : Int :=
  limitedCorrection (s.rawOf c tick) (s.port c.port).settings.jitLimit

/-- The cell formed for an entry from a stored cell (R95, R98). -/
def State.departCell (s : State) (f : FeedId) (e : Nat) (c : CellRecord) (tick : BitVec 32) : Cell :=
  let v := s.live f e
  { hdr := departHeader c.hdr (s.entry f e).outTag v.outCont v.discPending
    payload := if c.hdr.marked then movedMark c.payload (s.correctionOf c tick) else c.payload }

/-- The feed link carries a cell. -/
def State.emit (s : State) (f : FeedId) (c : Option Cell) : State := s.setFeed f { s.feed f with sent := c }

/-- The chosen entry sends its head cell: credit falls by U, OutCont advances, DiscPending clears at a marked cell, the cell
is released and a clamped correction is counted (R91, R95 to R98; COUNTER-SATURATED before PORT-CONGESTION, log entry 29). -/
def State.sendEntry (s : State) (f : FeedId) (e : Nat) (slot : Nat) (c : CellRecord) (tick : BitVec 32) : State :=
  let v := s.live f e
  let a := (s.emit f (some (s.departCell f e c tick))).setLive f e
    { v with
      credit := v.credit - s.unitCost, outCont := v.outCont + 1, discPending := v.discPending && !c.hdr.marked }
  let b := if c.hdr.marked ∧ s.correctionOf c tick ≠ s.rawOf c tick then a.count (.feed f .clamp) 1 else a
  b.release f slot

/-- A fill cell is sent (R93). -/
def State.sendFill (s : State) (f : FeedId) : State :=
  let x := s.feed f
  (s.setFeed f { x with fillCont := x.fillCont + 1, sent := some (sentCell .fill Config.fillTag x.fillCont []) }).count
    (.feed f .fill) 1

/-- The forming of the cell sent after selection (R86). -/
def State.sendSelected (s : State) (f : FeedId) (tick : BitVec 32) : State :=
  match s.select f with
  | none => s.sendFill f
  | some e =>
    match s.headOf f e with
    | none => s.sendFill f
    | some slot =>
      match s.store.cell slot with
      | none => s.sendFill f
      | some c => s.sendEntry f e slot c tick

/-- The departure of a RUNNING feed at a slot boundary: accrual, head evaluation of each live entry in index order,
selection and sending; then the lanes of the records it completed move on (R86, log entry 8). -/
def State.depart (s : State) (f : FeedId) : State :=
  let tick := s.stamp
  let es := s.liveEntries f
  let a := es.foldl (State.accrue f) s
  let b := es.foldl (State.evaluateHead tick f) a
  (b.sendSelected f tick).walkLanes

/-! ### Pattern cells (R172) -/

/-- A run of bits with its first bit inverted. -/
def invertFirst : List Bool → List Bool
  | b :: t => (!b) :: t
  | [] => []

/-- A pattern cell is sent (R172). -/
def State.sendPattern (s : State) (f : FeedId) : State :=
  let x := s.feed f
  let r := genRun Config.patternBits x.gen
  let bits := if x.injectPending then invertFirst r.1 else r.1
  s.setFeed f
    { x with
      gen := r.2, patCont := x.patCont + 1, injectPending := false,
      sent := some (sentCell .programme x.testTag x.patCont (bytesOfBits Config.payloadBytes bits)) }

/-! ### Changes of feed state (R81 to R85) -/

/-- The streams a feed would need, its entries' CurSrc in index order (R81). -/
def State.wantedSources (s : State) (f : FeedId) : List Source :=
  (s.liveEntries f).filterMap (fun e => (s.live f e).curSrc)

/-- The streams of the OPEN records. -/
def Store.openSources (st : Store) : List Source := st.openRecords.map (fun k => (st.stream k).src)

/-- The streams a feed would need fit in the stream table (R81). -/
def State.streamsFit (s : State) (f : FeedId) : Bool :=
  (distinct (s.wantedSources f ++ s.store.openSources)).length ≤ Config.streamRecords

/-- A feed subscribes, as reading, to each live entry's CurSrc in index order (R81). -/
def State.subscribeEntries (s : State) (f : FeedId) : State :=
  (s.wantedSources f).foldl (fun t src => t.subscribeFound f src false) s

/-- A DISABLED feed is enabled (R81). -/
def State.enableFeed (s : State) (f : FeedId) : State :=
  (s.setFeed f { s.feed f with state := .starting, pendMode := .none }).subscribeEntries f

/-- The shadows of the feeds of a set unlock (R70, R77). -/
def State.unlockAll (s : State) (fs : FeedSet) : State :=
  (feedList fs).foldl (fun t f => t.setMap f { t.map f with locked := false }) s

/-- A commit leaves the commit table with its shadows unlocked and its response handed on (R70, R77). -/
def State.endCommit (s : State) (c : Commit) (res : Result) (contents : List Byte) : State :=
  ({ s with commits := s.commits.filter (fun x => x.feeds &&& c.feeds = 0) }.unlockAll c.feeds).handCommitResponse
    { tag := c.tag, kind := 0x32, result := res, contents := contents }

/-- The pending commit that lists a feed (R70: no two pending commits share a feed). -/
def State.commitOf (s : State) (f : FeedId) : Option Commit := s.commits.find? (fun c => hasFeed c.feeds f)

/-- A feed in STARTING, RUNNING or TEST is disabled; a pending commit that lists it ends with STATE, naming the feed (R83,
R73). A change of state that a cycle boundary still owes the feed falls away with the state it would have left. -/
def State.disableFeed (s : State) (f : FeedId) : State :=
  let a := s.setFeed f { s.feed f with state := .disabled, pendMode := .none, injectPending := false }
  let b := ((a.feedStop f).withdrawAll f).restEntries f
  let c := match b.commitOf f with
    | some c => b.endCommit c .state (e1 f.val)
    | none => b
  { c with due := { c.due with cycleFeeds := dropFeed c.due.cycleFeeds f } }.walkLanes

/-- A feed enters TEST (R84, R173); the becoming RUNNING that a cycle boundary at the same instant owes it falls away. -/
def State.enterTest (s : State) (f : FeedId) : State :=
  let a := if s.feedNeeds f then (s.feedStop f).withdrawAll f else s
  let b := a.restEntries f
  let c := b.setFeed f { b.feed f with state := .test, pendMode := .none, gen := BitVec.allOnes 17, patCont := 0 }
  { c with due := { c.due with cycleFeeds := dropFeed c.due.cycleFeeds f } }.walkLanes

/-- A feed leaves TEST at a cycle boundary where its streams fit (R85, R173). -/
def State.leaveTest (s : State) (f : FeedId) : State :=
  (s.setFeed f { s.feed f with state := .running, pendMode := .none, injectPending := false }).subscribeEntries f

/-- A feed in STARTING becomes RUNNING (R82). -/
def State.becomeRunning (s : State) (f : FeedId) : State := s.setFeed f { s.feed f with state := .running }

end Sys2Proof.Machine
end

