-- ==== Sys2Proof/Machine/Maps.lean ====
section
/-! DEFINITION. The service maps (chapter 4): the shadow bank's requests, the commit's checks, its waiting, its swap and its
ends. -/

namespace Sys2Proof.Machine

/-- What a request is answered with: the state it leaves, its result and the contents of its response. -/
abbrev Answered := State × Result × List Byte

/-- A request is refused: nothing changes (R152). -/
def State.refuse (s : State) (r : Result) : Answered := (s, r, [])

/-! ### The checks of a commit (R68, R69) -/

/-- The entry of a bank's values by position in index order. -/
def entryValues {α : Type} (t : List (Nat × MapEntry)) (g : MapEntry → α) : List (Nat × α) :=
  (usedEntries t).map (fun e => (e, g (bankEntry t e)))

/-- The source that a used shadow entry would hold after a swap (R69). -/
def State.predictedSource (s : State) (f : FeedId) (x : MapEntry) : Source :=
  match s.entryOfTag f x.outTag with
  | some o => if (s.entry f o).homeSrc = x.homeSrc then ((s.live f o).curSrc).getD x.homeSrc else x.homeSrc
  | none => x.homeSrc

/-- The sources of a feed after a swap at this instant, by entry index (R69). -/
def State.predicted (s : State) (f : FeedId) : List (Nat × Source) :=
  entryValues (s.map f).shadow (s.predictedSource f)

/-- Check 7 of R68 on one feed: the lower index of two entries that would hold one source. -/
def State.sourceClash (s : State) (f : FeedId) : Option Nat :=
  if s.feedNeeds f then firstRepeat (s.predicted f) else none

/-- The streams of the waiting needs that a feed holds for records in use (R41, R69). -/
def State.recordSources (s : State) (f : FeedId) : List Source :=
  (s.ssu.records.filter (fun kr => kr.2.needs f)).map (fun kr => kr.2.newSrc)

/-- The streams a listed feed would need after a swap (R69). -/
def State.neededAfter (s : State) (f : FeedId) : List Source :=
  if s.feedNeeds f then (s.predicted f).map Prod.snd ++ s.recordSources f else []

/-- The streams that are open for a feed that is not listed (R69). -/
def State.openForOthers (s : State) (fs : FeedSet) : List Source :=
  (s.store.openRecords.filter (fun k => (s.store.stream k).subs &&& ~~~ fs ≠ 0)).map (fun k => (s.store.stream k).src)

/-- Check 8 of R68: none when the streams needed after a swap fit, else the lowest listed feed with a needed stream that has
no OPEN record (R69). Where the streams exceed 128 some such feed exists, since at most 128 records are OPEN. -/
def State.noRoomFeed (s : State) (fs : FeedSet) : Option FeedId :=
  if (distinct ((feedList fs).flatMap s.neededAfter ++ s.openForOthers fs)).length ≤ Config.streamRecords then none
  else (feedList fs).find? (fun f => (s.neededAfter f).any (fun src => (s.store.openAt src).isNone))

/-- Checks 3 to 7 of R68 on the shadow of one feed. DESIGN CHOICE, log entry 33: where several pairs clash in one check, or
several entries fail check 6, the entry named is the lowest index that a later entry repeats, or that fails. -/
def State.commitFeedCheck (s : State) (f : FeedId) : Option (Result × List Byte) :=
  let t := (s.map f).shadow
  if s.checkCost < shareSum t then some (.oversubscribed, e1 f.val)
  else match firstRepeat (entryValues t MapEntry.outTag) with
    | some e => some (.duplicate, e1 f.val ++ e1 e)
    | none =>
      match firstRepeat (entryValues t MapEntry.homeSrc) with
      | some e => some (.duplicate, e1 f.val ++ e1 e)
      | none =>
        match (usedEntries t).find? (fun e => (bankEntry t e).fallSrc = some (bankEntry t e).homeSrc) with
        | some e => some (.duplicate, e1 f.val ++ e1 e)
        | none => (s.sourceClash f).map (fun e => (.duplicate, e1 f.val ++ e1 e))

/-- The checks of COMMIT-MAP in their order; none when all pass (R68). -/
def State.commitCheck (s : State) (fs : FeedSet) : Option (Result × List Byte) :=
  if fs = 0 then some (.range, [])
  else if (feedList fs).any (fun f => (s.map f).locked) then some (.locked, [])
  else match (feedList fs).findSome? s.commitFeedCheck with
    | some r => some r
    | none => (s.noRoomFeed fs).map (fun f => (.noRoom, e1 f.val))

/-- The checks repeated at the swap; none when both pass (R74). -/
def State.swapCheck (s : State) (fs : FeedSet) : Option (Result × List Byte) :=
  match (feedList fs).findSome? (fun f => (s.sourceClash f).map (fun e => e1 f.val ++ e1 e)) with
  | some items => some (.duplicate, e2 s.tbu.cycleNo.toNat ++ items)
  | none => (s.noRoomFeed fs).map (fun f => (.noRoom, e2 s.tbu.cycleNo.toNat ++ e1 f.val))

/-! ### The swap (R74 to R77) -/

/-- A credit clamped into -U to 2U (R75). -/
def clampCredit (u : Nat) (c : Int) : Int := if c < -(u : Int) then -(u : Int) else min c (2 * u)

/-- RevertLeft of an entry kept in FALLBACK across a swap (R75). -/
def State.keptRevert (s : State) (x : MapEntry) (v : Live) : Option Nat :=
  if v.estate = .fallback ∧ x.autoRevert then
    match v.revertLeft with
    | some n => some (min n x.revertDelay)
    | none => if v.protSrc.any (fun p => s.portLive p.port) then some x.revertDelay else none
  else none

/-- The live fields of a new live entry of a swapped feed, formed by output tag from the state before the swap (R75). -/
def State.carried (s : State) (f : FeedId) (x : MapEntry) : Live :=
  if s.feedNeeds f then
    match s.entryOfTag f x.outTag with
    | some o =>
      let v := s.live f o
      let c := clampCredit s.unitCost v.credit
      if (s.entry f o).homeSrc = x.homeSrc then
        { v.clearSplice with credit := c, revertLeft := s.keptRevert x v }
      else
        { v.clearSplice with
          estate := .onAir, curSrc := some x.homeSrc, protSrc := none, revertLeft := none, discPending := true, credit := c }
    | none => Live.rest x.homeSrc
  else Live.rest x.homeSrc

/-- The revert countdowns that this cycle boundary still owes the new entries of a swapped feed: those owed to the entries
they carry on (R72, log entry 3). -/
def State.carriedReverts (s : State) (f : FeedId) : BitVec 64 :=
  let t := (s.map f).shadow
  (usedEntries t).foldl
    (fun b e => match s.entryOfTag f (bankEntry t e).outTag with
      | some o => if (s.due.reverts.get f).getLsbD o then b ||| BitVec.twoPow 64 e else b
      | none => b) 0

/-- ActiveBank of a feed names its former shadow, and its live fields are carried over (R74, R75). -/
def State.swapFeed (s : State) (f : FeedId) : State :=
  let m := s.map f
  let live := (usedEntries m.shadow).foldl
    (fun t e => Table.set Live.vacant t e (s.carried f (bankEntry m.shadow e))) ([] : List (Nat × Live))
  let a := s.setMap f { m with activeBank := m.activeBank.other, live := live }
  { a with due := { a.due with reverts := upd a.due.reverts f (s.carriedReverts f) } }

/-- The streams a feed holds, in stream-record index order. -/
def State.heldSources (s : State) (f : FeedId) : List Source :=
  (s.store.openRecords.filter (fun k => hasFeed (s.store.stream k).subs f)).map (fun k => (s.store.stream k).src)

/-- Steps 1 and 4 of R76, the withdraws: streams that the feed held (old) and needs no more, or needs only as waiting after a
reading need (new). -/
def State.swapWithdraws (old new : State) (f : FeedId) : List Source :=
  if new.feedNeeds f then
    (old.heldSources f).filter (fun src => !new.readingNeed f src && (old.readingNeed f src || !new.waitingNeed f src))
  else []

/-- Steps 2, 3 and 4 of R76: take-ups without pre-roll, reading subscribes in the order of the new entries, waiting
subscribes. DESIGN CHOICE, log entry 36: the waiting subscribes of step 4 come after the feed's reading subscribes of step 3, in
stream-record index order. -/
def State.swapSubscribes (old new : State) (t : State) (f : FeedId) : State :=
  if new.feedNeeds f then
    let wanted := new.wantedSources f
    let a := (wanted.filter (fun src => old.store.subscribed f src && !old.readingNeed f src)).foldl
      (fun t src => t.takeUp f src false) t
    let b := (wanted.filter (fun src => !old.store.subscribed f src)).foldl (fun t src => t.subscribeFound f src false) a
    ((old.heldSources f).filter (fun src => !new.readingNeed f src && old.readingNeed f src && new.waitingNeed f src)).foldl
      (fun t src => t.subscribeFound f src true) b
  else t

/-- The new shadow bank of a feed becomes a copy of the new active bank and unlocks (R77). -/
def State.refresh (s : State) (f : FeedId) : State :=
  let m := s.map f
  s.setMap f { m.setBank m.activeBank.other m.active with locked := false }

/-- The swap of the feeds of a set: banks and live fields, every withdraw before any subscribe, then the refresh (R74 to
R77). -/
def State.swap (s : State) (fs : FeedSet) : State :=
  let l := feedList fs
  let a := l.foldl State.swapFeed s
  let b := l.foldl (fun t f => (State.swapWithdraws s a f).foldl (fun t src => t.withdraw f src) t) a
  let c := l.foldl (State.swapSubscribes s a) b
  l.foldl State.refresh c

/-- A commit that finds its feeds free of splices repeats its checks and swaps, or ends (R74). -/
def State.trySwap (s : State) (c : Commit) : State :=
  match s.swapCheck c.feeds with
  | some (res, contents) => s.endCommit c res contents
  | none => (s.swap c.feeds).endCommit c .ok (e2 s.tbu.cycleNo.toNat)

/-- The lowest listed feed with a live entry in OUT-WAIT or IN-WAIT (R71). -/
def State.busyFeed (s : State) (fs : FeedSet) : Option FeedId := (feedList fs).find? s.feedBusy

/-- A commit considered at 64 cycle boundaries ends with TIMEOUT (R71). -/
def State.commitTimeout (s : State) (c : Commit) (f : FeedId) : State :=
  s.endCommit c .timeout (e2 s.tbu.cycleNo.toNat ++ e1 f.val)

/-- A pending commit is judged at a cycle boundary (R71). -/
def State.considerCommit (s : State) (c : Commit) : State :=
  let a := { s with commits := s.commits.map (fun (x : Commit) => if x.feeds = c.feeds then { x with due := false } else x) }
  match a.busyFeed c.feeds with
  | none => a.trySwap c
  | some f => if Config.commitLimit ≤ c.considered then a.commitTimeout c f else a

/-! ### Requests (R64 to R68) -/

/-- An entry of the shadow bank of each feed of a set is written. -/
def State.writeShadows (s : State) (fs : FeedSet) (e : Nat) (x : MapEntry) : State :=
  (feedList fs).foldl
    (fun t f => t.setMap f ((t.map f).setBank (t.map f).activeBank.other (setBankEntry (t.map f).shadow e x))) s

/-- The fields of a WRITE-MAP-ENTRY that lie in their ranges, before clamping (R64). -/
def writtenEntry (p : MapParams) (share delay : Nat) : Option MapEntry :=
  match tagOf p.outTag, sourceOf p.homeSrc, optSourceOf p.fallSrc, flagOf p.autoRevert with
  | some tag, some home, some fall, some auto =>
    some { used := true, outTag := tag, homeSrc := home, fallSrc := fall, share := share, autoRevert := auto,
           revertDelay := delay }
  | _, _, _, _ => none

/-- WRITE-MAP-ENTRY (R64). DESIGN CHOICE, log entry 30: an AutoRevert byte that codes no flag (R179) is RANGE before LOCKED. -/
def State.applyWriteMapEntry (s : State) (p : MapParams) : Answered :=
  let share := clampTo 1 s.checkCost p.share.toNat
  let delay := clampTo 1 255 p.revertDelay.toNat
  if p.feeds = 0 then s.refuse .range
  else match entryOf p.index, writtenEntry p share delay with
    | some e, some x =>
      if (feedList p.feeds).any (fun f => (s.map f).locked) then s.refuse .locked
      else (s.writeShadows p.feeds e x,
        if share = p.share.toNat ∧ delay = p.revertDelay.toNat then .ok else .clamped, [])
    | _, _ => s.refuse .range

/-- CLEAR-MAP-ENTRY (R65). -/
def State.applyClearMapEntry (s : State) (fs index : BitVec 8) : Answered :=
  if fs = 0 then s.refuse .range
  else match entryOf index with
    | some e =>
      if (feedList fs).any (fun f => (s.map f).locked) then s.refuse .locked
      else (s.writeShadows fs e MapEntry.unused, .ok, [])
    | none => s.refuse .range

/-- COMMIT-MAP: refused at once, or pending with no answer yet (R68, R70). -/
def State.applyCommitMap (s : State) (tag : BitVec 16) (fs : FeedSet) : State × Option (Result × List Byte) :=
  match s.commitCheck fs with
  | some r => (s, some r)
  | none =>
    ({ (feedList fs).foldl (fun t f => t.setMap f { t.map f with locked := true }) s with
        commits := s.commits ++ [{ feeds := fs, tag := tag, considered := 0, due := false }] }, none)

/-- The configuration fields of an entry in their order (section 4.1). -/
def MapEntry.contents (x : MapEntry) : List Byte :=
  eFlag x.used ++ e2 x.outTag.toNat ++ eSource x.homeSrc ++ eOptSource x.fallSrc ++ e3 x.share ++ eFlag x.autoRevert
    ++ e1 x.revertDelay

/-- The live fields of an entry in their order, each an item that may be absent (R67, R179, log entry 10). -/
def liveContents (v : Option Live) : List Byte :=
  eOptEnum (v.map (fun v => v.estate.code)) ++ eOptSource (v.bind Live.curSrc) ++ eOptSource (v.bind Live.newSrc)
    ++ eOptSource (v.bind Live.prevSrc) ++ eOptSource (v.bind Live.protSrc) ++ eOpt 3 (v.map (fun v => eSigned v.credit))
    ++ eOpt 1 (v.map (fun v => e1 v.outCont.toNat)) ++ eOpt 1 (v.map (fun v => eFlag v.discPending))
    ++ eOpt 1 (v.map (fun v => e1 v.windowLeft)) ++ eOptEnum ((v.bind Live.onMiss).map OnMiss.code) ++ eOwner (v.bind Live.owner)
    ++ eOpt 1 ((v.bind Live.revertLeft).map e1)

/-- READ-MAP-ENTRY (R67). -/
def State.applyReadMapEntry (s : State) (feed bank index : BitVec 8) : Answered :=
  match feedOf feed, flagOf bank, entryOf index with
  | some f, some shadow, some e =>
    let m := s.map f
    let x := bankEntry (if shadow then m.shadow else m.active) e
    (s, .ok, e1 m.activeBank.code ++ eFlag m.locked ++ x.contents
      ++ liveContents (if shadow then none else some (s.live f e))
      ++ eOpt 3 ((s.commitOf f).map (fun c => e2 c.tag.toNat ++ e1 c.considered)))
  | _, _, _ => s.refuse .range

/-! ### Feed requests (R80, R101, R174) -/

/-- The change that SET-FEED asks for: a mode (section 11.3, code 40h). -/
inductive FeedMode where
  | disabled
  | running
  | test
  deriving DecidableEq, Repr

/-- The mode a byte codes. -/
def feedModeOf (b : BitVec 8) : Option FeedMode :=
  if b = 0 then some .disabled else if b = 1 then some .running else if b = 2 then some .test else none

/-- The held TestTag is replaced when one is given (R80). -/
def State.giveTestTag (s : State) (f : FeedId) (t : Option Tag) : State :=
  match t with
  | some t => s.setFeed f { s.feed f with testTag := t }
  | none => s

/-- PendMode of a feed is written. -/
def State.setPendMode (s : State) (f : FeedId) (p : PendMode) : State := s.setFeed f { s.feed f with pendMode := p }

/-- The change that a mode makes in the state the feed is in (table of R80). -/
def State.changeFeed (s : State) (f : FeedId) (m : FeedMode) : State :=
  match m, (s.feed f).state with
  | .disabled, .disabled => s.setPendMode f .none
  | .disabled, .starting => s.disableFeed f
  | .disabled, .running => s.disableFeed f
  | .disabled, .test => s.disableFeed f
  | .running, .disabled => s.enableFeed f
  | .running, .starting => s.setPendMode f .none
  | .running, .running => s.setPendMode f .none
  | .running, .test => s.setPendMode f .running
  | .test, .disabled => s.setPendMode f .test
  | .test, .starting => s.setPendMode f .test
  | .test, .running => s.setPendMode f .test
  | .test, .test => s.setPendMode f .none

/-- Check 4 of R80: mode RUNNING on a feed in DISABLED or TEST asks for room (R81). -/
def State.feedChangeFits (s : State) (f : FeedId) (m : FeedMode) : Bool :=
  m ≠ .running || s.feedNeeds f || s.streamsFit f

/-- SET-FEED (R80). -/
def State.applySetFeed (s : State) (feed mode : BitVec 8) (testTag : BitVec 16) : Answered :=
  match feedOf feed, feedModeOf mode, optTagOf testTag with
  | some f, some m, some t =>
    if s.feedChangeFits f m then ((s.giveTestTag f t).changeFeed f m, .ok, []) else s.refuse .noRoom
  | _, _, _ => s.refuse .range

/-- INJECT-PATTERN-ERROR (R174). -/
def State.applyInject (s : State) (feed : BitVec 8) : Answered :=
  match feedOf feed with
  | some f =>
    if (s.feed f).state = .test then (s.setFeed f { s.feed f with injectPending := true }, .ok, []) else s.refuse .state
  | none => s.refuse .range

/-- The 28 bytes of one entry of a READ-FEED response (R183). -/
def State.entryContents (s : State) (f : FeedId) (e : Nat) : List Byte :=
  let x := s.entry f e
  let v := s.live f e
  e1 e ++ e2 x.outTag.toNat ++ e3 x.share ++ e1 v.estate.code ++ eOptSource v.curSrc ++ eOptSource v.newSrc
    ++ eOptSource v.prevSrc ++ eOptSource v.protSrc ++ eSigned v.credit ++ e1 v.outCont.toNat ++ eFlag v.discPending
    ++ e1 v.windowLeft ++ eOptEnum (v.onMiss.map OnMiss.code) ++ eOwner v.owner ++ eOpt 1 (v.revertLeft.map e1)
    ++ e2 (s.cellsOf f e).length

/-- READ-FEED (R101, R183). -/
def State.applyReadFeed (s : State) (feed first : BitVec 8) : Answered :=
  match feedOf feed, entryOf first with
  | some f, some e =>
    let x := s.feed f
    let es := (s.liveEntries f).filter (fun k => e ≤ k)
    (s, .ok, e1 x.state.code ++ eOptEnum x.pendMode.code ++ e2 x.testTag.toNat ++ e1 (s.map f).activeBank.code
      ++ eFlag (s.map f).locked ++ e2 (s.counter (.feed f .fill)) ++ e2 (s.counter (.feed f .clamp))
      ++ e1 (es.take 4).length ++ eOptEnum (es.drop 4).head? ++ ((es.take 4).map (s.entryContents f)).flatten)
  | _, _ => s.refuse .range

end Sys2Proof.Machine
end

