-- ==== Sys2Proof/Machine/Requests.lean ====
section
/-! DEFINITION. The requests of the timebase, the ports, the splice schedule, reporting and management, each as its owning
rule checks, does and answers it. -/

namespace Sys2Proof.Machine

/-! ### Timebase requests (R10, R11, R14, R16) -/

/-- SET-SLOT-PERIOD (R10). -/
def State.applySetSlotPeriod (s : State) (int frac : BitVec 16) : Answered :=
  let i := clampTo 64 65535 int.toNat
  ({ s with tbu := { s.tbu with pendSlotPeriod := some (i, frac.toNat) } }, if i = int.toNat then .ok else .clamped, [])

/-- SET-CYCLE-LENGTH (R11). -/
def State.applySetCycleLength (s : State) (length : BitVec 16) : Answered :=
  let l := clampTo 256 16384 length.toNat
  if allFeeds.any (fun f => (s.feed f).state ≠ .disabled) then s.refuse .state
  else if s.commits ≠ [] then s.refuse .state
  else match allFeeds.find? (fun f => 16 * l < shareSum (s.map f).active) with
    | some f => (s, .oversubscribed, e1 f.val)
    | none => ({ s with tbu := { s.tbu with pendCycleLen := some l } }, if l = length.toNat then .ok else .clamped, [])

/-- SET-EPOCH (R14). -/
def State.applySetEpoch (s : State) (value : BitVec 16) : Answered :=
  ({ s with tbu := { s.tbu with pendEpoch := some value } }, .ok, [])

/-- The items of a READ-TIMEBASE response (R16, R179). -/
def Tbu.contents (t : Tbu) : List Byte :=
  e6 t.tickCount.toNat ++ e4 t.secNo.toNat ++ e1 t.refState.code
    ++ eOpt 6 (if t.refState = .locked then t.expMark.map (fun v => e6 v.toNat) else none)
    ++ eOpt 1 (if t.refState = .holdover then some (e1 t.relockRun) else none)
    ++ eOpt 6 (if t.refState = .holdover then t.lastMark.map (fun v => e6 v.toNat) else none)
    ++ e6 t.nextSecond.toNat ++ e2 t.slotInt ++ e2 t.slotFrac
    ++ eOpt 4 (t.pendSlotPeriod.map (fun p => e2 p.1 ++ e2 p.2)) ++ e2 t.cycleLen ++ eOpt 2 (t.pendCycleLen.map e2)
    ++ e2 t.cycleNo.toNat ++ e2 t.slotIndex ++ eOpt 2 (t.pendEpoch.map (fun v => e2 v.toNat))

/-- READ-TIMEBASE (R16). -/
def State.applyReadTimebase (s : State) : Answered := (s, .ok, s.tbu.contents)

/-! ### Port requests (R18 to R20, R34) -/

/-- The loss deadline that a port takes now under a LossTimeout (R19 to R21). -/
def State.deadline (s : State) (lossTimeout : Nat) : BitVec 48 :=
  s.tbu.tickCount + BitVec.ofNat 48 (lossTimeout * Config.lossUnit)

/-- The port holds a loss deadline in its state (R30). -/
def PortState.timed : PortState → Bool
  | .hunt => true
  | .live => true
  | .absent => true
  | .down => false
  | .lost => false

/-- The settings after a SET-PORT, every listed numeric value brought into its range (R18). -/
def Settings.changed (t : Settings) (p : PortParams) (enable : Bool) (checkTag : Option Tag) : Settings :=
  { enable := if portListed p 0 then enable else t.enable
    quota := if portListed p 1 then clampTo 0 16384 p.quota.toNat else t.quota
    maxAge := if portListed p 2 then clampTo 1 16777215 p.maxAge.toNat else t.maxAge
    nomDelay := if portListed p 3 then clampTo 0 16777215 p.nomDelay.toNat else t.nomDelay
    jitLimit := if portListed p 4 then clampTo 0 1048575 p.jitLimit.toNat else t.jitLimit
    winLen := if portListed p 5 then clampTo 64 4096 p.winLen.toNat else t.winLen
    winMin := if portListed p 6 then clampTo 1 15 p.winMin.toNat else t.winMin
    lossTimeout := if portListed p 7 then clampTo 1 65535 p.lossTimeout.toNat else t.lossTimeout
    checkTag := if portListed p 8 then checkTag else t.checkTag }

/-- A listed numeric value lies outside its range (R18). -/
def portClamps (p : PortParams) : Bool :=
  (portListed p 1 && clampTo 0 16384 p.quota.toNat ≠ p.quota.toNat)
    || (portListed p 2 && clampTo 1 16777215 p.maxAge.toNat ≠ p.maxAge.toNat)
    || (portListed p 3 && clampTo 0 16777215 p.nomDelay.toNat ≠ p.nomDelay.toNat)
    || (portListed p 4 && clampTo 0 1048575 p.jitLimit.toNat ≠ p.jitLimit.toNat)
    || (portListed p 5 && clampTo 64 4096 p.winLen.toNat ≠ p.winLen.toNat)
    || (portListed p 6 && clampTo 1 15 p.winMin.toNat ≠ p.winMin.toNat)
    || (portListed p 7 && clampTo 1 65535 p.lossTimeout.toNat ≠ p.lossTimeout.toNat)

/-- The port with its new settings and what they restart (R19). -/
def State.resetPort (s : State) (q : Port) (p : PortParams) (t : Settings) : Port :=
  let window := portListed p 5 || portListed p 6
  { q with
    settings := t
    winCount := if window then 0 else q.winCount
    winProg := if window then 0 else q.winProg
    lossDeadline := if portListed p 7 && q.state.timed then some (s.deadline t.lossTimeout) else q.lossDeadline
    chkState := if portListed p 8 then .search else q.chkState
    chkRun := if portListed p 8 then 0 else q.chkRun }

/-- Enable set on a port (R20). -/
def State.enablePort (s : State) (p : PortId) : State :=
  let q := s.port p
  if q.state = .down then
    (s.setPort p
      { q with state := .hunt, goodRun := 0, align := [], lossDeadline := some (s.deadline q.settings.lossTimeout) }).handPortChange
      p .down
  else s

/-- The run and window counts of a port are cleared. -/
def Port.clearRuns (q : Port) : Port :=
  { q with goodRun := 0, badRun := 0, winCount := 0, winProg := 0, thinRun := 0, fullRun := 0 }

/-- Enable set off on a port (R20; the source protection before the purge, log entry 21). -/
def State.disablePort (s : State) (p : PortId) : State :=
  let q := s.port p
  if q.state = .down then s
  else
    ((s.setPort p { q.clearRuns with state := .down, lossDeadline := none, align := [] }).handPortChange p q.state).purge p

/-- A new CheckTag on a locked checker is a change of its state (R177). -/
def State.handCheckerReset (s : State) (p : PortId) (listed : Bool) (old : ChkState) : State :=
  if listed && old = .locked then s.handReport (.patternState p .locked .search) else s

/-- The settings of a SET-PORT are written and take effect (R18 to R20). DESIGN CHOICE, log entry 29: the events it hands at its
instant come in the order PATTERN-STATE, PORT-CONGESTION by the quota, PORT-STATE (R161). -/
def State.writePort (s : State) (p : PortId) (c : PortParams) (enable : Bool) (checkTag : Option Tag) : State :=
  let q := s.port p
  let t := q.settings.changed c enable checkTag
  let a := (s.setPort p (s.resetPort q c t)).handCheckerReset p (portListed c 8) q.chkState
  let b := if portListed c 1 then a.judgeCongestion p else a
  if portListed c 0 then if enable then b.enablePort p else b.disablePort p else b

/-- SET-PORT (R18). DESIGN CHOICE, log entry 30: an Enable byte that codes no flag (R179) is RANGE before checks 3 and 4. -/
def State.applySetPort (s : State) (c : PortParams) : Answered :=
  match portOf c.port, flagOf c.enable, if portListed c 8 then optTagOf c.checkTag else some none with
  | some p, some enable, some checkTag =>
    if p = 0 ∧ portListed c 0 ∧ enable = false then s.refuse .state
    else if portListed c 1 ∧ clampTo 0 16384 c.quota.toNat < s.store.occ.get p then s.refuse .state
    else (s.writePort p c enable checkTag, if portClamps c then .clamped else .ok, [])
  | _, _, _ => s.refuse .range

/-- The items of a READ-PORT response (R34, R179). -/
def State.portContents (s : State) (p : PortId) : List Byte :=
  let q := s.port p
  let t := q.settings
  e1 q.state.code ++ e1 q.goodRun ++ e1 q.badRun ++ e2 q.winCount ++ e2 q.winProg ++ e1 q.thinRun ++ e1 q.fullRun
    ++ eOpt 6 (q.lossDeadline.map (fun d => e6 (d - s.tbu.tickCount).toNat))
    ++ eFlag t.enable ++ e2 t.quota ++ e3 t.maxAge ++ e3 t.nomDelay ++ e3 t.jitLimit ++ e2 t.winLen ++ e1 t.winMin
    ++ e2 t.lossTimeout ++ eOptTag t.checkTag ++ e2 (s.store.occ.get p) ++ eFlag (s.store.cong.get p)
    ++ e2 (s.counter (.port p .hdrErr)) ++ e2 (s.counter (.port p .contErr)) ++ e2 (s.counter (.port p .overflow))
    ++ e2 (s.counter (.port p .stale)) ++ e2 (s.counter (.port p .patternErr)) ++ e1 q.chkState.code

/-- READ-PORT (R34). -/
def State.applyReadPort (s : State) (port : BitVec 8) : Answered :=
  match portOf port with
  | some p => (s, .ok, s.portContents p)
  | none => s.refuse .range

/-! ### Schedule requests (R106 to R110) -/

/-- The record that a WRITE-SPLICE-RECORD writes, its fields in their ranges and its numbers brought into theirs; none is
RANGE (R106 checks 1 to 4, and a Continue byte that codes no flag, log entry 30). -/
def writtenRecord (p : SpliceParams) (newShare : Nat) : Option SpliceRecord :=
  match recordOf p.nextRec, carriesOf p.carries, flagOf p.goesOn, actionOf p.action, tagOf p.outTag, sourceOf p.newSrc,
      onMissOf p.onMiss with
  | some nextRec, some carries, some goesOn, some action, some outTag, some newSrc, some onMiss =>
    if carries = .action ∧ p.feeds = 0 then none
    else
      some
        { nextRec := nextRec, carries := carries, goesOn := goesOn, action := action, feeds := p.feeds, outTag := outTag,
          newSrc := newSrc, newShare := newShare, dueCycle := p.dueCycle, noticeLead := p.noticeLead.toNat,
          window := clampTo 1 255 p.window.toNat, onMiss := onMiss, status := .pending, outcomes := [], marks := [] }
  | _, _, _, _, _, _, _ => none

/-- A lane that waits or is parked on a rewritten record reaches it afresh (R106). -/
def State.reachRewritten (r : Nat) (s : State) (l : LaneId) : State :=
  let n := s.lane l
  if n.curRec = r ∧ (n.state = .waiting ∨ n.state = .parked) then (s.setLane l { n with linkRun := 0 }).reach l r else s

/-- WRITE-SPLICE-RECORD (R106; the lanes in lane order, log entry 16). -/
def State.applyWriteSpliceRecord (s : State) (p : SpliceParams) : Answered :=
  let share := clampTo 1 s.checkCost p.newShare.toNat
  match recordOf p.index, writtenRecord p share with
  | some r, some x =>
    if (s.record r).inUse then s.refuse .inUse
    else
      (allLanes.foldl (State.reachRewritten r) (s.setRecord r x),
        if share = p.newShare.toNat ∧ x.window = p.window.toNat then .ok else .clamped, [])
  | _, _ => s.refuse .range

/-- The part's standing against one lane for READ-SPLICE-RECORD: the lane's state when its CurRec is the record (R183). -/
def State.laneOn (s : State) (r : Nat) (l : LaneId) : Option Nat :=
  if (s.lane l).curRec = r then some (s.lane l).state.code else none

/-- The items of a READ-SPLICE-RECORD response (R110, R183). -/
def State.recordContents (s : State) (r : Nat) : List Byte :=
  let x := s.record r
  e2 x.nextRec ++ e1 x.carries.code ++ eFlag x.goesOn ++ e1 x.action.code ++ e1 x.feeds.toNat ++ e2 x.outTag.toNat
    ++ eSource x.newSrc ++ e3 x.newShare ++ e2 x.dueCycle.toNat ++ e1 x.noticeLead ++ e1 x.window ++ e1 x.onMiss.code
    ++ e1 x.status.code ++ eOutcomes x.outcomes ++ eMarks x.marks
    ++ e1 ((allLanes.map (fun l => if (s.lane l).curRec = r then 2 ^ l.val else 0)).sum)
    ++ (allLanes.map (fun l => eOptEnum (s.laneOn r l))).flatten

/-- READ-SPLICE-RECORD (R110). -/
def State.applyReadSpliceRecord (s : State) (index : BitVec 16) : Answered :=
  match recordOf index with
  | some r => (s, .ok, s.recordContents r)
  | none => s.refuse .range

/-- START-LANE (R108). -/
def State.applyStartLane (s : State) (lane : BitVec 8) (head : BitVec 16) : Answered :=
  match laneOf lane, recordOf head with
  | some l, some r =>
    if (s.lane l).state = .stopped then
      ((s.setLane l { s.lane l with curRec := r, linkRun := 0 }).reach l r, .ok, [])
    else s.refuse .state
  | _, _ => s.refuse .range

/-- A lane stopped in NOTICED: its record is ABANDONED and its pre-subscriptions end (R107; their PORT-CONGESTION before the
SPLICE-OUTCOME, log entry 29). -/
def State.abandon (s : State) (l : LaneId) : State :=
  let r := (s.lane l).curRec
  let x := s.record r
  (((s.setRecord r { x with status := .abandoned }).endMarks x (feedList x.feeds)).handReport
    (.spliceOutcome l r .abandoned [])).stopLaneNow l

/-- A lane is acted on by its state (table of R107). -/
def State.stopByState (s : State) (l : LaneId) : State :=
  match (s.lane l).state with
  | .waiting => s.stopLaneNow l
  | .parked => s.stopLaneNow l
  | .noticed => s.abandon l
  | .armed => s.setLane l { s.lane l with state := .stopping }
  | .stopping => s
  | .stopped => s

/-- STOP-LANE (R107). A lane stopped is owed no evaluation at the present cycle boundary any more. -/
def State.applyStopLane (s : State) (lane : BitVec 8) : Answered :=
  match laneOf lane with
  | some l =>
    let t := s.stopByState l
    ({ t with due := { t.due with lanes := t.due.lanes &&& ~~~ BitVec.twoPow 4 l.val } }, .ok, [])
  | none => s.refuse .range

/-- READ-LANE (R109). -/
def State.applyReadLane (s : State) (lane : BitVec 8) : Answered :=
  match laneOf lane with
  | some l =>
    let n := s.lane l
    let x := s.record n.curRec
    (s, .ok, e1 n.state.code ++ e2 n.curRec ++ e1 n.linkRun ++ e1 x.carries.code ++ eFlag x.goesOn ++ e1 x.action.code
      ++ e2 x.dueCycle.toNat ++ e1 x.noticeLead ++ e1 x.status.code ++ e2 (s.distance x.dueCycle)
      ++ eOpt 1 (if n.state = .armed ∨ n.state = .stopping then some (e1 x.startedCount) else none))
  | none => s.refuse .range

/-! ### Reporting requests (R163, R167, R168) -/

/-- The settings of reports and counters as a SET-REPORTING response carries them (R163, log entry 13). -/
def Mlt.settingContents (m : Mlt) : List Byte :=
  ((List.range 11).map (fun n => eFlag (m.enables.getLsbD n))).flatten ++ e1 m.portEdge.code ++ e1 m.timebaseEdge.code
    ++ e1 m.patternEdge.code ++ e1 m.counterMode.code ++ e2 m.period

/-- SET-REPORTING (R163). -/
def State.applySetReporting (s : State) (p : ReportingParams) : Answered :=
  match edgeModeOf p.portEdge, edgeModeOf p.timebaseEdge, edgeModeOf p.patternEdge, counterModeOf p.counterMode with
  | some a, some b, some c, some mode =>
    let period := clampTo 1 3600 p.period.toNat
    let m :=
      { s.mlt with
        enables := p.enables.setWidth 11, portEdge := a, timebaseEdge := b, patternEdge := c, counterMode := mode,
        period := period, secsLeft := if mode = .auto then some period else none }
    ({ s with mlt := m }, if period = p.period.toNat then .ok else .clamped, m.settingContents)
  | _, _, _, _ => s.refuse .range

/-- The instant of the latest transfer (R165, R179). -/
def Mlt.transferContents (m : Mlt) : List Byte :=
  e2 m.transferNo.toNat ++ eOpt 6 (m.lastTransfer.map (fun t => e4 t.1.toNat ++ e2 t.2.toNat))

/-- LATCH-COUNTERS (R167). -/
def State.applyLatchCounters (s : State) : Answered :=
  if s.mlt.counterMode = .auto then s.refuse .state
  else (s.transfer, .ok, s.transfer.mlt.transferContents)

/-- READ-COUNTERS (R168, R183). -/
def State.applyReadCounters (s : State) (group : BitVec 8) : Answered :=
  match flagOf group with
  | some feeds =>
    let h := s.counters.held.toList
    (s, .ok, ((if feeds then h.drop 65 else h.take 65).map e2).flatten ++ s.mlt.transferContents ++ e1 s.mlt.counterMode.code
      ++ eOpt 2 (s.mlt.secsLeft.map e2))
  | none => s.refuse .range

/-! ### Management requests (R145, R154) -/

/-- SET-GROUPS (R145). -/
def State.applySetGroups (s : State) (p : GroupParams) : Answered :=
  match groupOf p.g0, groupOf p.g1, groupOf p.g2, groupOf p.g3 with
  | some a, some b, some c, some d =>
    ({ s with mgmt := { s.mgmt with groups := #v[a, b, c, d] } }, .ok,
      e2 s.mgmt.unitAddr.toNat ++ eOptTag a ++ eOptTag b ++ eOptTag c ++ eOptTag d)
  | _, _, _, _ => s.refuse .range

/-- CP0 after a soft reset: state, alignment and settings kept but CheckTag none and the checker at its power-up values
(R36). -/
def Port.softReset (q : Port) : Port :=
  { q with
    settings := { q.settings with checkTag := none }, chkState := .search, chkRun := 0, chkGen := BitVec.allOnes 17 }

/-- The MLT after a soft reset (R170). -/
def Mlt.softReset (m : Mlt) : Mlt :=
  { Mlt.powerUp with responses := m.responses, monCont := m.monCont, monFillCont := m.monFillCont, sent := m.sent }

/-- The parties of an open boundary that a soft reset leaves something to take (log entry 3). -/
def Due.softReset (d : Due) : Due :=
  { d with cycleFeeds := 0, lanes := 0, reverts := Vector.replicate 8 0 }

/-- The part after a soft reset: the TBU, the management state, CP0, the response queue and the monitor link's counts are
kept, the rest is at its power-up values (R154). -/
def State.softReset (s : State) : State :=
  { State.powerUp s.mgmt.unitAddr with
    tbu := s.tbu, ports := (Vector.replicate 13 Port.regional).set 0 (s.port 0).softReset, mgmt := s.mgmt,
    mlt := s.mlt.softReset, due := s.due.softReset, pending := s.pending }

/-- SOFT-RESET (R154). -/
def State.applySoftReset (s : State) : Answered := (s.softReset, .ok, [])

end Sys2Proof.Machine
end

