-- ==== Sys2Proof/Machine/Management.lean ====
section
/-! DEFINITION. The path of a request (chapter 8): the CRX that takes it, the intake queue, REX that serves it, and the
placing of its response. -/

namespace Sys2Proof.Machine

/-! ### REX (R149 to R151) -/

/-- A request answered when it is taken. -/
def answered (a : Answered) : State × Option (Result × List Byte) := (a.1, some a.2)

/-- A well formed request is applied by the rule that owns it (table of section 8.7). No answer: an accepted COMMIT-MAP. -/
def State.applyRequest (s : State) (q : Taken) : State × Option (Result × List Byte) :=
  match q.request with
  | .setSlotPeriod i f => answered (s.applySetSlotPeriod i f)
  | .setCycleLength l => answered (s.applySetCycleLength l)
  | .setEpoch v => answered (s.applySetEpoch v)
  | .readTimebase => answered s.applyReadTimebase
  | .setPort p => answered (s.applySetPort p)
  | .readPort p => answered (s.applyReadPort p)
  | .writeMapEntry p => answered (s.applyWriteMapEntry p)
  | .clearMapEntry fs e => answered (s.applyClearMapEntry fs e)
  | .commitMap fs => s.applyCommitMap q.tag fs
  | .readMapEntry f b e => answered (s.applyReadMapEntry f b e)
  | .setFeed f m t => answered (s.applySetFeed f m t)
  | .readFeed f e => answered (s.applyReadFeed f e)
  | .injectPatternError f => answered (s.applyInject f)
  | .writeSpliceRecord p => answered (s.applyWriteSpliceRecord p)
  | .readSpliceRecord r => answered (s.applyReadSpliceRecord r)
  | .startLane l h => answered (s.applyStartLane l h)
  | .stopLane l => answered (s.applyStopLane l)
  | .readLane l => answered (s.applyReadLane l)
  | .setReporting p => answered (s.applySetReporting p)
  | .latchCounters => answered s.applyLatchCounters
  | .readCounters g => answered (s.applyReadCounters g)
  | .setGroups p => answered (s.applySetGroups p)
  | .softReset => answered s.applySoftReset
  | .malformed => answered (s.refuse .malformed)

/-- A request's record is judged and the request applied (R151). -/
def State.judgeRequest (s : State) (q : Taken) : State × Option (Result × List Byte) :=
  if q.request.wellFormed then s.applyRequest q else answered (s.refuse .malformed)

/-- A response formed by REX is placed, or held when the response queue is full (R150). -/
def State.respond (s : State) (r : Response) : State :=
  if s.responseRoom then s.placeResponse r else { s with mgmt := { s.mgmt with heldResponse := some r } }

/-- REX takes one request and forms its response (R149). -/
def State.serve (s : State) (q : Taken) : State :=
  match s.judgeRequest q with
  | (t, some (res, contents)) => t.respond { tag := q.tag, kind := q.kind, result := res, contents := contents }
  | (t, none) => t

/-- REX, while IDLE, takes the requests at the front of the intake queue, at most n of them (R149). -/
def State.rexRun : Nat → State → State
  | 0, s => s
  | n + 1, s =>
    match s.mgmt.heldResponse, s.mgmt.intake with
    | none, q :: t => State.rexRun n ({ s with mgmt := { s.mgmt with intake := t } }.serve q)
    | _, _ => s

/-- REX takes what it can. No request that it serves lengthens the intake queue. -/
def State.rexGo (s : State) : State := State.rexRun s.mgmt.intake.length s

/-- REX places its held response when the response queue has room, becomes IDLE and takes the next requests (R150). -/
def State.placeHeld (s : State) : State :=
  match s.mgmt.heldResponse with
  | some r =>
    if s.responseRoom then ({ s with mgmt := { s.mgmt with heldResponse := none } }.placeResponse r).rexGo else s
  | none => s

/-- The SMU places its oldest held commit response when the response queue has room (R77). -/
def State.placeHeldCommit (s : State) : State :=
  match s.heldCommits with
  | r :: t => if s.responseRoom then { s with heldCommits := t }.placeResponse r else s
  | [] => s

/-! ### The CRX (R146 to R148) -/

/-- A request joins the intake queue, and REX takes it if it is IDLE (R148, R149). -/
def State.joinIntake (s : State) (q : Taken) : State :=
  { s with mgmt := { s.mgmt with intake := s.mgmt.intake ++ [q] } }.rexGo

/-- An overrun: an OVERRUN response is placed if the response queue has room and dropped if not (R148). -/
def State.overrun (s : State) (q : Taken) : State :=
  if s.responseRoom then s.placeResponse { tag := q.tag, kind := q.kind, result := .overrun, contents := [] } else s

/-- The CRX takes a request (R148). -/
def State.takeIn (s : State) (q : Taken) : State :=
  if s.mgmt.intake.length < Config.intakePlaces then s.joinIntake q else s.overrun q

/-- A listed address matches the unit (R146, R144). -/
def Mgmt.answersTo (m : Mgmt) (a : BitVec 12) : Bool :=
  a = 4095 || (a = m.unitAddr && 1 ≤ m.unitAddr.toNat && m.unitAddr.toNat ≤ 4094) || m.groups.toList.any (fun g => g = some a)

/-- An ADDRESS cell matches the unit (R146, R180). -/
def Mgmt.matches (m : Mgmt) (payload : List Byte) : Bool :=
  match addressesOf payload with
  | some l => l.any m.answersTo
  | none => false

/-- An ADDRESS cell on CP0 (R146). -/
def State.addressCell (s : State) (payload : List Byte) : State :=
  { s with mgmt := { s.mgmt with wake := if s.mgmt.matches payload then .awake else .asleep } }

/-- A CONTROL cell that carries a request can reach the CRX and is taken: CP0 delivers cells and the unit is AWAKE (R147,
R156). -/
def State.hears (s : State) : Bool :=
  s.mgmt.wake = .awake && ((s.port 0).state = .live || (s.port 0).state = .absent)

/-- The CRX is sent a request: it is taken if the unit hears it, and else discarded (R147, R156). -/
def State.send (s : State) (q : Taken) : State := if s.hears then s.takeIn q else s

/-- A CONTROL cell on CP0 (R147). -/
def State.controlCell (s : State) (payload : List Byte) : State :=
  if s.mgmt.wake = .awake then s.takeIn (takenOf payload) else s

end Sys2Proof.Machine
end

