-- ==== Sys2Proof/Machine/Ports.lean ====
section
/-! DEFINITION. The contribution ports (chapter 2) and their pattern checkers (chapter 10): delineation, header checking,
routing, window counting, loss. -/

namespace Sys2Proof.Machine

/-! ### The pattern checker (R175, R176) -/

/-- The generator state that the first 17 payload bits stand for (R175). -/
def seedOf (bits : List Bool) : BitVec 17 := (bits.take 17).foldl genPush 0

/-- A checked cell in SEARCH (R175). -/
def State.searchCell (s : State) (p : PortId) (bits : List Bool) : State :=
  let q := s.port p
  let r := genRun (Config.patternBits - 17) (seedOf bits)
  if mismatches r.1 (bits.drop 17) ≤ Config.searchLimit then
    if q.chkRun + 1 = 2 then
      (s.setPort p { q with chkState := .locked, chkRun := 0, chkGen := r.2 }).handReport (.patternState p .search .locked)
    else s.setPort p { q with chkRun := q.chkRun + 1 }
  else s.setPort p { q with chkRun := 0 }

/-- A checked cell in LOCKED (R176; COUNTER-SATURATED before PATTERN-STATE, log entry 29). -/
def State.lockedCell (s : State) (p : PortId) (bits : List Bool) : State :=
  let q := s.port p
  let r := genRun Config.patternBits q.chkGen
  let m := mismatches r.1 bits
  let a := (s.setPort p { q with chkGen := r.2 }).count (.port p .patternErr) m
  if m ≤ Config.lockedLimit then a.setPort p { a.port p with chkRun := 0 }
  else if q.chkRun + 1 = 2 then
    (a.setPort p { a.port p with chkState := .search, chkRun := 0 }).handReport (.patternState p .locked .search)
  else a.setPort p { a.port p with chkRun := q.chkRun + 1 }

/-- A PROGRAMME cell on the port's CheckTag is judged (R175, R176). -/
def State.checkCell (s : State) (p : PortId) (payload : List Byte) : State :=
  match (s.port p).chkState with
  | .search => s.searchCell p (bitsOf payload)
  | .locked => s.lockedCell p (bitsOf payload)

/-! ### Routing (R24 to R26) -/

/-- A cell whose Kind and Tag agree is routed by its kind and port (R25, R26). A CONTROL cell of CP0 leaves the port here; the
control receiver takes it in State.handOver. -/
def State.route (s : State) (p : PortId) (h : Header) (payload : List Byte) : State :=
  match h.kind with
  | .programme =>
    if (s.port p).settings.checkTag = some h.tag then s.checkCell p payload else s.offerCell p h payload
  | .fill => s
  | .control => s
  | .address => if p = 0 then s.addressCell payload else s

/-! ### Windows (R27 to R29) -/

/-- A window of a port in LIVE or ABSENT closes full or thin (R28, R29). -/
def Port.closeWindow (q : Port) (full : Bool) : Port :=
  let r := { q with winCount := 0, winProg := 0 }
  match q.state, full with
  | .live, false => if q.thinRun + 1 = 2 then { r with state := .absent, thinRun := 0, fullRun := 0 }
    else { r with thinRun := q.thinRun + 1 }
  | .live, true => { r with thinRun := 0 }
  | .absent, true => if q.fullRun + 1 = 2 then { r with state := .live, thinRun := 0, fullRun := 0 }
    else { r with fullRun := q.fullRun + 1 }
  | .absent, false => { r with fullRun := 0 }
  | _, _ => r

/-- A good-header cell is counted in the current window (R27). -/
def Port.countWindow (q : Port) (programme : Bool) : Port :=
  let r := { q with winCount := q.winCount + 1, winProg := q.winProg + programme.toNat }
  if q.settings.winLen ≤ r.winCount then r.closeWindow (q.settings.winMin ≤ r.winProg) else r

/-- The port takes a new value, and a change of its PortState is handed on (R32). -/
def State.changePort (s : State) (p : PortId) (q : Port) : State :=
  let old := (s.port p).state
  let t := s.setPort p q
  if q.state = old then t else t.handPortChange p old

/-! ### Arrivals (R21 to R23, R31) -/

/-- The unit that completes at the port's alignment: after a slip it begins with the bytes of the failed unit, and the last
byte given is the one newly received (R22, log entry 6). -/
def Port.unitAt (q : Port) (unit : List Byte) : List Byte :=
  if q.align = [] then unit else q.align ++ [byteAt unit 159]

/-- A unit in a hunt (R22). -/
def Port.hunt (q : Port) (unit : List Byte) : Port :=
  if headerGood unit then
    if q.goodRun + 1 = Config.goodHeaders then
      { q.clearRuns with state := .live, align := [] }
    else { q with goodRun := q.goodRun + 1, align := [] }
  else { q with goodRun := 0, align := unit.drop 1 }

/-- A unit with a bad header in LIVE or ABSENT (R23; COUNTER-SATURATED before PORT-STATE, log entry 29). -/
def State.badUnit (s : State) (p : PortId) (unit : List Byte) : State :=
  let a := s.count (.port p .hdrErr) 1
  let q := a.port p
  if q.badRun + 1 = Config.badHeaders then
    a.changePort p { q.clearRuns with state := .hunt, align := unit.drop 1 }
  else a.setPort p { q with badRun := q.badRun + 1, align := [] }

/-- A CONTROL cell that agrees with its Tag on CP0 is handed to the control receiver (R26). REX takes its request when the arrival
that carries it has been applied whole, so that a response shows that arrival whole (R34, R148, log entry 35). -/
def State.handOver (s : State) (p : PortId) (h : Header) (payload : List Byte) : State :=
  if h.kind = .control ∧ kindTagAgree h ∧ p = 0 then s.controlCell payload else s

/-- A PROGRAMME cell that a window counts as programme (R27). -/
def countsAsProgramme (h : Header) : Bool := h.kind = .programme && kindTagAgree h

/-- A unit with a correct header in LIVE or ABSENT: routed, then counted in the window, then a request that it carries is taken
(R23 to R27, R34; what its cell causes before PORT-STATE, log entry 29). -/
def State.goodUnit (s : State) (p : PortId) (unit : List Byte) : State :=
  let h := unitHeader unit
  let a := s.setPort p { s.port p with badRun := 0, align := [] }
  let b := if kindTagAgree h then a.route p h (unitPayload unit) else a
  (b.changePort p ((b.port p).countWindow (countsAsProgramme h))).handOver p h (unitPayload unit)

/-- A unit completes at a port whose link is examined (R21, R31). -/
def State.arrive (s : State) (p : PortId) (unit : List Byte) : State :=
  let q := s.port p
  let u := q.unitAt unit
  let moved := { q with lossDeadline := some (s.deadline q.settings.lossTimeout) }
  match q.state with
  | .down => s
  | .lost => s.changePort p (({ moved with state := .hunt, goodRun := 0, align := [] } : Port).hunt unit)
  | .hunt => s.changePort p (moved.hunt u)
  | .live => if headerGood u then (s.setPort p moved).goodUnit p u else (s.setPort p moved).badUnit p u
  | .absent => if headerGood u then (s.setPort p moved).goodUnit p u else (s.setPort p moved).badUnit p u

/-! ### Loss of the link (R30) -/

/-- The port's loss deadline is reached (R30). -/
def State.lossReached (s : State) (p : PortId) : Bool :=
  (s.port p).state.timed && (s.port p).lossDeadline = some s.tbu.tickCount

/-- A port becomes LOST (R30). -/
def State.lose (s : State) (p : PortId) : State :=
  s.changePort p { (s.port p).clearRuns with state := .lost, lossDeadline := none, align := [] }

end Sys2Proof.Machine
end

