-- ==== Sys2Proof/Machine/Timebase.lean ====
section
/-! DEFINITION. The timebase (chapter 1): slot, cycle and second boundaries, epochs and second marks, and the parties that
take a boundary (R8, R9). A boundary is opened once, at its instant; each party takes its part in the order the environment
gives (log entry 3). -/

namespace Sys2Proof.Machine

/-! ### When an instant has come -/

/-- TickCount in 1/65536 tick (R8). -/
def State.tickPos (s : State) : BitVec 64 := s.tbu.tickCount ++ (0 : BitVec 16)

/-- TickCount has reached NextSecond (R2). -/
def State.secondReached (s : State) : Bool := s.tbu.tickCount = s.tbu.nextSecond

/-- A second boundary falls at a mark where none was taken in the 64 ticks before it (R3). -/
def Tbu.boundaryAtMark (t : Tbu) : Bool :=
  match t.lastSecond with
  | none => true
  | some l => Config.markWindow < (t.tickCount - l).toNat

/-- A mark lies in the window of the expected mark (R5). -/
def Tbu.markInWindow (t : Tbu) : Bool :=
  match t.expMark with
  | some e => (t.tickCount - (e - BitVec.ofNat 48 Config.markWindow)).toNat ≤ 2 * Config.markWindow
  | none => false

/-- A mark is well spaced after LastMark (R6). -/
def Tbu.wellSpaced (t : Tbu) : Bool :=
  match t.lastMark with
  | some l =>
    Config.ticksPerSecond.toNat - Config.markWindow ≤ (t.tickCount - l).toNat
      && (t.tickCount - l).toNat ≤ Config.ticksPerSecond.toNat + Config.markWindow
  | none => false

/-- A mark at this tick re-phases the second boundaries (R3 to R6). -/
def Tbu.markRephases (t : Tbu) : Bool :=
  match t.refState with
  | .free => true
  | .locked => t.markInWindow
  | .holdover => 2 ≤ t.relockRun && t.wellSpaced

/-- An epoch is taken at this tick, so that a slot boundary at it is not (R15). -/
def State.epochAtTick (s : State) : Bool := s.secondReached && s.tbu.pendEpoch.isSome

/-- A mark at this tick would take an epoch with its second boundary, but a slot boundary of this tick has been taken while that
epoch was pending. No such mark falls at this tick, since the epoch would have abandoned the slot boundary (R15, log entry 20). -/
def State.markPassed (s : State) : Bool := s.due.epochPassed && s.tbu.markRephases && s.tbu.boundaryAtMark

/-- This is the first tick whose position is equal to or beyond SlotPos (R8). -/
def State.slotReached (s : State) : Bool := (s.tickPos - s.tbu.slotPos).toNat < 65536 && !s.epochAtTick

/-- The slot boundary reached is also a cycle boundary (R9). -/
def State.cycleReached (s : State) : Bool := s.slotReached && !(s.tbu.slotIndex + 1 < s.tbu.cycleLen)

/-! ### Opening a cycle boundary (R9, R15) -/

/-- WindowLeft of an entry in OUT-WAIT or IN-WAIT falls by one (R123). -/
def Live.lowered (v : Live) : Live := if v.busy then { v with windowLeft := v.windowLeft - 1 } else v

/-- The live entries of a feed with their windows lowered (R123). -/
def FeedMap.lowered (m : FeedMap) : FeedMap := { m with live := m.live.map (fun kv => (kv.1, kv.2.lowered)) }

/-- A feed has a change of state to make at a cycle boundary (R82, R85). -/
def State.changesAtCycle (s : State) (f : FeedId) : Bool :=
  match (s.feed f).state with
  | .starting => true
  | .test => (s.feed f).pendMode = .running
  | _ => false

/-- The lanes that evaluate their records at a cycle boundary (R114). -/
def State.lanesToEvaluate (s : State) : BitVec 4 :=
  allLanes.foldl
    (fun b l => if (s.lane l).state = .waiting ∨ (s.lane l).state = .noticed then b ||| BitVec.twoPow 4 l.val else b) 0

/-- The cycle boundary is handed to its parties: windows fall, pending commits count it, and what each feed, lane, entry and
commit has to do at it is due (R9, R71, R123; log entries 3 and 27). -/
def State.openCycle (s : State) : State :=
  { s with
    maps := s.maps.map FeedMap.lowered
    commits := s.commits.map (fun (c : Commit) => { c with considered := c.considered + 1, due := true })
    due :=
      { s.due with
        cycleFeeds := feedsWhere s.changesAtCycle, lanes := s.lanesToEvaluate,
        reverts := Vector.replicate 8 (BitVec.allOnes 64) } }

/-! ### Opening a slot boundary (R8, R9) -/

/-- The slot period in force from this instant: a pending one is taken (R8). -/
def Tbu.period (t : Tbu) : Nat × Nat := t.pendSlotPeriod.getD (t.slotInt, t.slotFrac)

/-- The advance of SlotPos in 1/65536 tick (R8). -/
def Tbu.advance (t : Tbu) : BitVec 64 := BitVec.ofNat 64 (t.period.1 * 65536 + t.period.2)

/-- SlotPos at a slot boundary (R8). -/
def Tbu.nextSlot (t : Tbu) : Tbu :=
  { t with slotInt := t.period.1, slotFrac := t.period.2, pendSlotPeriod := none, slotPos := t.slotPos + t.advance }

/-- SlotIndex, CycleNo and the cycle length at a slot boundary (R9, R12). -/
def Tbu.nextIndex (t : Tbu) : Tbu :=
  if t.slotIndex + 1 < t.cycleLen then { t with slotIndex := t.slotIndex + 1 }
  else { t with slotIndex := 0, cycleNo := t.cycleNo + 1, cycleLen := t.pendCycleLen.getD t.cycleLen, pendCycleLen := none }

/-- The slot boundary is taken by the TBU and handed to every feed composer and the MLT, and the cycle boundary with it at
C (R8, R9). -/
def State.openSlot (s : State) : State :=
  let cycle := !(s.tbu.slotIndex + 1 < s.tbu.cycleLen)
  let a :=
    { s with
      tbu := s.tbu.nextSlot.nextIndex
      due :=
        { s.due with
          slotFeeds := BitVec.allOnes 8, monitor := true, epochPassed := s.tbu.pendEpoch.isSome } }
  if cycle then a.openCycle else a

/-- The slot boundary is opened if its tick has come. -/
def State.meetSlot (s : State) : State := if s.slotReached then s.openSlot else s

/-! ### Parts of a cycle boundary -/

/-- A feed in STARTING with PendMode TEST has still to take the slot boundary that is also the cycle boundary: it enters TEST
at it and does not become RUNNING, unless the test is withdrawn before (R84, R80). -/
def State.testComes (s : State) (f : FeedId) : Bool :=
  (s.feed f).state = .starting && (s.feed f).pendMode = .test && hasFeed s.due.slotFeeds f

/-- A feed's change of state at a cycle boundary (R82, R85). -/
def State.changeAtCycle (s : State) (f : FeedId) : State :=
  if hasFeed s.due.cycleFeeds f && !s.testComes f then
    let a := { s with due := { s.due with cycleFeeds := dropFeed s.due.cycleFeeds f } }
    match (a.feed f).state, (a.feed f).pendMode with
    | .starting, _ => a.becomeRunning f
    | .test, .running => if a.streamsFit f then a.leaveTest f else a
    | _, _ => a
  else s

/-- The window of an entry has reached 0: its splice ends, and the lane of a record it completes moves on (R123). -/
def State.windowPart (s : State) (f : FeedId) (e : Nat) : State :=
  if (s.live f e).busy ∧ (s.live f e).windowLeft = 0 then (s.expireWindow f e).walkLanes else s

/-- An entry's revert countdown at a cycle boundary (R137, R138). -/
def State.revertPart (s : State) (f : FeedId) (e : Nat) : State :=
  if (s.due.reverts.get f).getLsbD e then
    { s with
      due := { s.due with reverts := upd s.due.reverts f (s.due.reverts.get f &&& ~~~ BitVec.twoPow 64 e) } }.countRevert f e
  else s

/-- A lane's evaluation at a cycle boundary (R114). -/
def State.lanePart (s : State) (l : LaneId) : State :=
  if s.due.lanes.getLsbD l.val then
    { s with due := { s.due with lanes := s.due.lanes &&& ~~~ BitVec.twoPow 4 l.val } }.evaluateLane l
  else s

/-- The pending commit that lists a feed is judged at a cycle boundary (R71). -/
def State.commitPart (s : State) (f : FeedId) : State :=
  match s.commitOf f with
  | some c => if c.due then s.considerCommit c else s
  | none => s

/-- A party takes its part of a cycle boundary; nothing when it has none to take. -/
def State.cyclePart (s : State) : CyclePart → State
  | .feed f => s.changeAtCycle f
  | .window f e => s.windowPart f e
  | .revert f e => s.revertPart f e
  | .lane l => s.lanePart l
  | .commit f => s.commitPart f

/-- Parts of a cycle boundary taken in an order. -/
def State.cycleParts (s : State) (l : List CyclePart) : State := l.foldl State.cyclePart s

/-- Every party of a cycle boundary: feeds, windows, revert countdowns, lanes, commits. -/
def allCycleParts : List CyclePart :=
  allFeeds.map CyclePart.feed
    ++ allFeeds.flatMap (fun f => (List.range Config.mapEntries).map (CyclePart.window f))
    ++ allFeeds.flatMap (fun f => (List.range Config.mapEntries).map (CyclePart.revert f))
    ++ allLanes.map CyclePart.lane ++ allFeeds.map CyclePart.commit

/-- The parts that are still due, if the command takes the whole boundary. -/
def State.closeCycle (s : State) (pace : Pace) : State :=
  match pace with
  | .whole => s.cycleParts allCycleParts
  | .listed => s

/-! ### Parts of a slot boundary -/

/-- What a feed does at a slot boundary: enter TEST, make its change of the cycle boundary, then send (R79, R82, R84, R85,
R86, R172). -/
def State.slotOfFeed (s : State) (f : FeedId) : State :=
  let a := if (s.feed f).pendMode = .test then s.enterTest f else s.changeAtCycle f
  match (a.feed f).state with
  | .running => a.depart f
  | .test => a.sendPattern f
  | _ => a.emit f none

/-- A feed composer takes the slot boundary that is handed to it. -/
def State.slotPartFeed (s : State) (f : FeedId) : State :=
  if hasFeed s.due.slotFeeds f then
    { s with due := { s.due with slotFeeds := dropFeed s.due.slotFeeds f } }.slotOfFeed f
  else s

/-- The MLT takes the slot boundary that is handed to it (R158). -/
def State.slotPartMonitor (s : State) : State :=
  if s.due.monitor then { s with due := { s.due with monitor := false } }.monitorSend else s

/-- A party takes its part of a slot boundary. -/
def State.slotPart (s : State) : SlotPart → State
  | .feed f => s.slotPartFeed f
  | .monitor => s.slotPartMonitor

/-- Parts of a slot boundary taken in an order. -/
def State.slotParts (s : State) (l : List SlotPart) : State := l.foldl State.slotPart s

/-- Every party of a slot boundary: the feeds in feed order, then the MLT. -/
def allSlotParts : List SlotPart := allFeeds.map SlotPart.feed ++ [.monitor]

/-- The parts that are still due, if the command takes the whole boundary. -/
def State.closeSlot (s : State) (pace : Pace) : State :=
  match pace with
  | .whole => (s.slotParts allSlotParts).closeCycle .whole
  | .listed => s

/-- A slot boundary, with the cycle boundary it may be (R8, R9). -/
def State.slotBoundary (s : State) (order : List SlotPart) (pace : Pace) : State :=
  (s.meetSlot.slotParts order).closeSlot pace

/-- A cycle boundary reached by counting slots, at the slot boundary that is also the cycle boundary; the departures are left
to the slot boundary's own command (R9, R72). -/
def State.cycleBoundary (s : State) (order : List CyclePart) (pace : Pace) : State :=
  ((if s.cycleReached then s.openSlot else s).cycleParts order).closeCycle pace

/-! ### Second boundaries and epochs (R2, R15, R166) -/

/-- SecNo and LastSecond at a second boundary (R2). -/
def Tbu.secondTaken (t : Tbu) : Tbu := { t with secNo := t.secNo + 1, lastSecond := some t.tickCount }

/-- SecsLeft counts a second boundary down in AUTO (R166). -/
def Mlt.countSecond (m : Mlt) : Mlt := { m with secsLeft := m.secsLeft.map (fun n => n - 1) }

/-- The second boundary at NextSecond has come and ends a counter period: SecsLeft reaches 0 at it (R166). -/
def State.transferComes (s : State) : Bool :=
  s.secondReached && s.mlt.counterMode = .auto && s.mlt.countSecond.secsLeft = some 0

/-- A second boundary is counted by the TBU and by the MLT (R2, R166). -/
def State.countSecond (s : State) : State := { s with tbu := s.tbu.secondTaken, mlt := s.mlt.countSecond }

/-- The counter transfer of the second boundary being taken: made when SecsLeft has reached 0 (R166). -/
def State.transferPart (s : State) : State :=
  if s.mlt.counterMode = .auto ∧ s.mlt.secsLeft = some 0 then s.autoTransfer else s

/-- The TBU at an epoch, taken at the tick of its second boundary (R15, R12). -/
def Tbu.epochTaken (t : Tbu) (value : BitVec 16) : Tbu :=
  { t with
    cycleNo := value, slotIndex := 0, pendEpoch := none, slotInt := t.period.1, slotFrac := t.period.2,
    pendSlotPeriod := none, slotPos := (t.tickCount ++ (0 : BitVec 16)) + t.advance,
    cycleLen := t.pendCycleLen.getD t.cycleLen, pendCycleLen := none }

/-- A pending epoch is taken at a second boundary: the slot interval that runs is abandoned and a cycle boundary is handed on
(R15). -/
def State.openEpoch (s : State) : State :=
  match s.tbu.pendEpoch with
  | some v => { s with tbu := s.tbu.epochTaken v, due := { s.due with slotFeeds := 0, monitor := false } }.openCycle
  | none => s

/-- A second boundary with its epoch, if one is pending, and its counter transfer, if it calls for one (R2, R15, R16, R166). The
pace places the transfer before the epoch, after it, or after every part of the epoch's cycle boundary (log entry 3). -/
def State.openSecond (s : State) (pace : SecondPace) : State :=
  match pace with
  | .whole =>
    if s.tbu.pendEpoch.isSome then (s.countSecond.openEpoch.closeCycle .whole).transferPart else s.countSecond.transferPart
  | .transferFirst => s.countSecond.transferPart.openEpoch
  | .epochFirst => s.countSecond.openEpoch.transferPart

/-- The second boundary at NextSecond, if its tick has come (R2). -/
def State.secondBoundary (s : State) (pace : SecondPace) : State :=
  if s.secondReached then
    { s with tbu := { s.tbu with nextSecond := s.tbu.nextSecond + Config.ticksPerSecond } }.openSecond pace
  else s

/-- The second boundary at NextSecond with the epoch that it takes, if there is one (R15). -/
def State.meetEpoch (s : State) : State := if s.epochAtTick then s.secondBoundary .epochFirst else s

/-- An epoch, and parts of the cycle boundary that it made (R15). -/
def State.epochStep (s : State) (order : List CyclePart) (pace : Pace) : State :=
  (s.meetEpoch.cycleParts order).closeCycle pace

/-! ### Second marks (R3 to R7) -/

/-- RefState changes, and the change is handed to the MLT (R7). -/
def State.setRef (s : State) (new : RefState) : State :=
  { s with tbu := { s.tbu with refState := new } }.handReport (.timebaseState s.tbu.refState new)

/-- NextSecond one second after a mark (R3). -/
def Tbu.afterMark (t : Tbu) : BitVec 48 := t.tickCount + Config.ticksPerSecond

/-- A re-phase to a mark that leaves the TBU in LOCKED, with the second boundary at the mark that it may call for (R3). -/
def State.rephase (s : State) (pace : SecondPace) : State :=
  let a := { s with tbu := { s.tbu with nextSecond := s.tbu.afterMark, expMark := some s.tbu.afterMark } }
  if s.tbu.boundaryAtMark then a.openSecond pace else a

/-- A run of marks in HOLDOVER stands at this length, its latest mark now (R6). -/
def State.markRun (s : State) (n : Nat) : State :=
  { s with tbu := { s.tbu with relockRun := n, lastMark := some s.tbu.tickCount } }

/-- The search for a run of marks ends (R5, R6). -/
def State.endRun (s : State) : State := { s with tbu := { s.tbu with relockRun := 0, lastMark := none } }

/-- A mark in HOLDOVER (table of R6). -/
def State.holdoverMark (s : State) (pace : SecondPace) : State :=
  if s.tbu.relockRun = 0 then s.markRun 1
  else if s.tbu.wellSpaced then
    if s.tbu.relockRun + 1 < 3 then s.markRun 2 else (s.setRef .locked).endRun.rephase pace
  else s.markRun 1

/-- A mark by RefState (R4 to R6). The change of RefState is handed first, with the CycleNo before an epoch at the mark and
before the COUNTER-REPORT of a transfer at it: DESIGN CHOICE, log entry 29 (R7, R161). -/
def State.judgeMark (s : State) (pace : SecondPace) : State :=
  match s.tbu.refState with
  | .free => (s.setRef .locked).rephase pace
  | .locked => if s.tbu.markInWindow then s.rephase pace else s
  | .holdover => s.holdoverMark pace

/-- A second mark, with the second boundary it may cause (R3). -/
def State.secondMark (s : State) (pace : SecondPace) : State := if s.markPassed then s else s.judgeMark pace

/-- The window of the expected mark has closed with no mark taken (R5). -/
def State.markWindowClosed (s : State) : Bool :=
  s.tbu.refState = .locked && s.tbu.expMark.any (fun e => s.tbu.tickCount = e + 65)

/-- The TBU goes into HOLDOVER (R5). -/
def State.enterHoldover (s : State) : State :=
  let a := (s.setRef .holdover).endRun
  { a with tbu := { a.tbu with expMark := none } }

end Sys2Proof.Machine
end

