-- ==== Sys2Proof/Machine/Clock.lean ====
section
/-! DEFINITION. The meanings of the commands of the timebase family: power, ticks, boundaries, epochs and second marks. A
command whose instant has not come changes nothing (log entry 1). -/

namespace Sys2Proof.Machine

/-- What a command answers. -/
abbrev Answer := Host.Outcome State Fault Refusal

/-- POWER_UP: the straps are sampled and every block takes its power-up values (R17, R35, R58, R78, R102, R130, R144, R156,
R170). -/
def execPowerUp (straps : BitVec 12) (s : State) : Answer := .next { State.powerUp straps with pending := s.pending }

/-- STATION_TICK (R1). -/
def execStationTick (s : State) : Answer :=
  .next
    { s with
      tbu := { s.tbu with tickCount := s.tbu.tickCount + 1 }, due := { s.due with epochPassed := false } }

/-- SLOT_BOUNDARY (R8). -/
def execSlotBoundary (order : List SlotPart) (pace : Pace) (s : State) : Answer := .next (s.slotBoundary order pace)

/-- PENDING_SLOT_PERIOD_TAKEN: the TBU takes the period as it opens the slot boundary, or takes the epoch, whose tick has come;
a boundary is opened whole (R8, R15, R16). -/
def execPendingSlotPeriodTaken (s : State) : Answer :=
  .next (if s.tbu.pendSlotPeriod.isSome then if s.slotReached then s.openSlot else s.meetEpoch else s)

/-- CYCLE_BOUNDARY (R9). -/
def execCycleBoundary (order : List CyclePart) (pace : Pace) (s : State) : Answer := .next (s.cycleBoundary order pace)

/-- PENDING_CYCLE_LENGTH_TAKEN: the TBU takes the length as it opens the cycle boundary whose tick has come, by counting or by
an epoch, before the boundary is handed on (R12). -/
def execPendingCycleLengthTaken (s : State) : Answer :=
  .next (if s.tbu.pendCycleLen.isSome then if s.cycleReached then s.openSlot else s.meetEpoch else s)

/-- SECOND_BOUNDARY (R2). -/
def execSecondBoundary (pace : SecondPace) (s : State) : Answer := .next (s.secondBoundary pace)

/-- EPOCH (R15). -/
def execEpoch (order : List CyclePart) (pace : Pace) (s : State) : Answer := .next (s.epochStep order pace)

/-- SECOND_MARK (R3 to R6). -/
def execSecondMark (pace : SecondPace) (s : State) : Answer := .next (s.secondMark pace)

/-- MARK_WINDOW_EXPIRY (R5). -/
def execMarkWindowExpiry (s : State) : Answer := .next (if s.markWindowClosed then s.enterHoldover else s)

/-- AUTO_COUNTER_TRANSFER: the second boundary at NextSecond that ends a counter period, with its transfer; no event comes between
the two. A second boundary at a mark makes its transfer in SECOND_MARK (R166). -/
def execAutoCounterTransfer (s : State) : Answer :=
  .next (if s.transferComes then s.secondBoundary .transferFirst else s)

end Sys2Proof.Machine
end

