-- ==== Sys2Proof/Machine/Links.lean ====
section
/-! DEFINITION. The meanings of the commands of the contribution links and of the waiting responses. -/

namespace Sys2Proof.Machine

/-- CELL_ARRIVAL (R21): a unit of 160 bytes completes at the port. -/
def execCellArrival (p : PortId) (unit : List Byte) (s : State) : Answer :=
  .next (if unit.length = Config.cellBytes then s.arrive p unit else s)

/-- LOSS_DEADLINE_EXPIRY (R30). -/
def execLossDeadlineExpiry (p : PortId) (s : State) : Answer := .next (if s.lossReached p then s.lose p else s)

/-- HELD_RESPONSE_PLACED (R150). -/
def execHeldResponsePlaced (s : State) : Answer := .next s.placeHeld

/-- COMMIT_RESPONSE_PLACED (R77). -/
def execCommitResponsePlaced (s : State) : Answer := .next s.placeHeldCommit

end Sys2Proof.Machine
end

