-- ==== Sys2Proof/Machine/Splices.lean ====
section
/-! DEFINITION. The meanings of the commands that are one party's part of a boundary: splices, reverts, lanes, commits and
changes of feed state. Each acts when its part is due and its case applies, and else changes nothing (log entries 1, 3). -/

namespace Sys2Proof.Machine

/-- The composer of a RUNNING feed has a slot boundary to take and departs at it (R79, R84). -/
def State.departureDue (s : State) (f : FeedId) : Bool :=
  hasFeed s.due.slotFeeds f && s.feedRunning f && (s.feed f).pendMode ≠ .test

/-- The state in which a departure now comes to the head evaluation of an entry: accrual is done and the entries before it have
been evaluated (R86). -/
def State.upToEntry (s : State) (f : FeedId) (e : Nat) : State :=
  ((s.liveEntries f).filter (fun k => k < e)).foldl (State.evaluateHead s.stamp f)
    ((s.liveEntries f).foldl (State.accrue f) s)

/-- The head evaluation of an entry makes an out-point (R89). -/
def State.meetsOutPoint (s : State) (f : FeedId) (e : Nat) (tick : BitVec 32) : Bool :=
  (s.live f e).estate = .outWait && (s.freshen f e tick).headBoundary f e

/-- The head evaluation of an entry in IN-WAIT makes an in-point (R90). -/
def State.findsInPoint (s : State) (f : FeedId) (e : Nat) (tick : BitVec 32) : Bool :=
  (s.live f e).estate = .inWait && (State.seekRun f tick (s.cellsOf f e) s).2

/-- The head evaluation of an entry makes an in-point, in IN-WAIT or right after its out-point (R89, R90). -/
def State.meetsInPoint (s : State) (f : FeedId) (e : Nat) (tick : BitVec 32) : Bool :=
  s.findsInPoint f e tick
    || (s.meetsOutPoint f e tick && ((s.freshen f e tick).outPoint f e).findsInPoint f e tick)

/-- OUT_POINT (R121): the departure of the feed, taken whole (R94, R101), when it makes an out-point at the entry. -/
def execOutPoint (f : FeedId) (e : Nat) (s : State) : Answer :=
  .next (if s.departureDue f ∧ e ∈ s.liveEntries f ∧ (s.upToEntry f e).meetsOutPoint f e s.stamp then s.slotPartFeed f else s)

/-- IN_POINT (R122): the departure of the feed, taken whole (R94, R101), when it makes an in-point at the entry. -/
def execInPoint (f : FeedId) (e : Nat) (s : State) : Answer :=
  .next (if s.departureDue f ∧ e ∈ s.liveEntries f ∧ (s.upToEntry f e).meetsInPoint f e s.stamp then s.slotPartFeed f else s)

/-- The distance of a lane's current record (R114). -/
def State.laneDistance (s : State) (l : LaneId) : Nat := s.distance (s.record (s.lane l).curRec).dueCycle

/-- A lane waits on an action record that no lane has put in use (R113, R114). -/
def State.laneWaits (s : State) (l : LaneId) : Bool :=
  (s.lane l).state = .waiting && (s.record (s.lane l).curRec).carries = .action && !(s.record (s.lane l).curRec).inUse

/-- A lane's record is to be given notice at this boundary (R114, R115). -/
def State.noticeDue (s : State) (l : LaneId) : Bool :=
  s.due.lanes.getLsbD l.val && s.laneWaits l && 1 ≤ s.laneDistance l
    && s.laneDistance l ≤ (s.record (s.lane l).curRec).noticeLead && s.laneDistance l < 32768

/-- NOTICE (R115). -/
def execNotice (l : LaneId) (s : State) : Answer := .next (if s.noticeDue l then s.lanePart l else s)

/-- A lane's record is to be armed at this boundary (R114, R117). -/
def State.armingDue (s : State) (l : LaneId) : Bool :=
  s.due.lanes.getLsbD l.val && (s.laneWaits l || (s.lane l).state = .noticed) && s.laneDistance l = 0

/-- ARMING (R117). -/
def execArming (l : LaneId) (s : State) : Answer := .next (if s.armingDue l then s.lanePart l else s)

/-- WINDOW_EXPIRY (R123). -/
def execWindowExpiry (f : FeedId) (e : Nat) (s : State) : Answer := .next (s.windowPart f e)

/-- The countdown of an entry reaches or stands at 0 at this boundary, and its revert starts (R138). -/
def State.revertStarts (s : State) (f : FeedId) (e : Nat) : Bool :=
  (s.due.reverts.get f).getLsbD e && (s.live f e).estate = .fallback && (s.live f e).revertLeft.any (fun n => n ≤ 1)
    && (s.live f e).protSrc.any (fun p => s.revertAllowed f e p)

/-- REVERT_START (R138). -/
def execRevertStart (f : FeedId) (e : Nat) (s : State) : Answer := .next (if s.revertStarts f e then s.revertPart f e else s)

/-- The commit that lists a feed, when a cycle boundary has been handed to it (R71). -/
def State.dueCommit (s : State) (f : FeedId) : Option Commit := (s.commitOf f).filter (fun c => c.due)

/-- COMMIT_SWAP: the commit that lists the feed finds its feeds free of splices (R74). -/
def execCommitSwap (f : FeedId) (s : State) : Answer :=
  .next (match s.dueCommit f with
    | some c => if (s.busyFeed c.feeds).isNone then s.considerCommit c else s
    | none => s)

/-- COMMIT_TIMEOUT: the commit that lists the feed has been considered at 64 cycle boundaries (R71). -/
def execCommitTimeout (f : FeedId) (s : State) : Answer :=
  .next (match s.dueCommit f with
    | some c => if (s.busyFeed c.feeds).isSome ∧ Config.commitLimit ≤ c.considered then s.considerCommit c else s
    | none => s)

/-- FEED_BECOMES_RUNNING (R82). -/
def execFeedBecomesRunning (f : FeedId) (s : State) : Answer :=
  .next (if (s.feed f).state = .starting then s.changeAtCycle f else s)

/-- FEED_ENTERS_TEST: the feed's part of the slot boundary at which it enters TEST, with its first pattern cell (R84). -/
def execFeedEntersTest (f : FeedId) (s : State) : Answer :=
  .next (if hasFeed s.due.slotFeeds f ∧ (s.feed f).pendMode = .test then s.slotPartFeed f else s)

/-- FEED_LEAVES_TEST (R85). -/
def execFeedLeavesTest (f : FeedId) (s : State) : Answer :=
  .next (if (s.feed f).state = .test ∧ s.streamsFit f then s.changeAtCycle f else s)

end Sys2Proof.Machine
end

