-- ==== Sys2Proof/Machine/RequestRows.lean ====
section
/-! DEFINITION. The meanings of the request commands: the CRX takes the request, if CP0 delivers it to a unit that is AWAKE, and
REX serves it, now or when it comes to the front of the intake queue (R147 to R149, R156, log entry 5). The effect of each request is its apply function, by kind, in
State.applyRequest. -/

namespace Sys2Proof.Machine

/-- MALFORMED_REQUEST: a CONTROL cell's record of unknown kind, wrong length or non-zero spare field is taken; any other
record is no such command and nothing happens (R151, R181). -/
def execMalformedRequest (record : List Byte) (s : State) : Answer :=
  .next (if (takenOf record).request.wellFormed then s else s.send (takenOf record))

/-- SET_SLOT_PERIOD (R10). -/
def execSetSlotPeriod (tag : BitVec 16) (int frac : BitVec 16) (s : State) : Answer :=
  .next (s.send { tag := tag, kind := 0x10, request := .setSlotPeriod int frac })

/-- SET_CYCLE_LENGTH (R11). -/
def execSetCycleLength (tag : BitVec 16) (length : BitVec 16) (s : State) : Answer :=
  .next (s.send { tag := tag, kind := 0x11, request := .setCycleLength length })

/-- SET_EPOCH (R14). -/
def execSetEpoch (tag : BitVec 16) (value : BitVec 16) (s : State) : Answer :=
  .next (s.send { tag := tag, kind := 0x12, request := .setEpoch value })

/-- READ_TIMEBASE (R16). -/
def execReadTimebase (tag : BitVec 16) (s : State) : Answer :=
  .next (s.send { tag := tag, kind := 0x13, request := .readTimebase })

/-- SET_PORT (R18). -/
def execSetPort (tag : BitVec 16) (params : PortParams) (s : State) : Answer :=
  .next (s.send { tag := tag, kind := 0x20, request := .setPort params })

/-- READ_PORT (R34). -/
def execReadPort (tag : BitVec 16) (port : BitVec 8) (s : State) : Answer :=
  .next (s.send { tag := tag, kind := 0x21, request := .readPort port })

/-- WRITE_MAP_ENTRY (R64). -/
def execWriteMapEntry (tag : BitVec 16) (params : MapParams) (s : State) : Answer :=
  .next (s.send { tag := tag, kind := 0x30, request := .writeMapEntry params })

/-- CLEAR_MAP_ENTRY (R65). -/
def execClearMapEntry (tag : BitVec 16) (feeds index : BitVec 8) (s : State) : Answer :=
  .next (s.send { tag := tag, kind := 0x31, request := .clearMapEntry feeds index })

/-- COMMIT_MAP (R68). -/
def execCommitMap (tag : BitVec 16) (feeds : BitVec 8) (s : State) : Answer :=
  .next (s.send { tag := tag, kind := 0x32, request := .commitMap feeds })

/-- READ_MAP_ENTRY (R67). -/
def execReadMapEntry (tag : BitVec 16) (feed bank index : BitVec 8) (s : State) : Answer :=
  .next (s.send { tag := tag, kind := 0x33, request := .readMapEntry feed bank index })

/-- SET_FEED_RUNNING (R81). -/
def execSetFeedRunning (tag : BitVec 16) (feed : BitVec 8) (testTag : BitVec 16) (s : State) : Answer :=
  .next (s.send { tag := tag, kind := 0x40, request := .setFeed feed 1 testTag })

/-- SET_FEED_DISABLED (R83). -/
def execSetFeedDisabled (tag : BitVec 16) (feed : BitVec 8) (testTag : BitVec 16) (s : State) : Answer :=
  .next (s.send { tag := tag, kind := 0x40, request := .setFeed feed 0 testTag })

/-- SET_FEED_TEST (R84). -/
def execSetFeedTest (tag : BitVec 16) (feed : BitVec 8) (testTag : BitVec 16) (s : State) : Answer :=
  .next (s.send { tag := tag, kind := 0x40, request := .setFeed feed 2 testTag })

/-- READ_FEED (R101). -/
def execReadFeed (tag : BitVec 16) (feed first : BitVec 8) (s : State) : Answer :=
  .next (s.send { tag := tag, kind := 0x41, request := .readFeed feed first })

/-- INJECT_PATTERN_ERROR (R174). -/
def execInjectPatternError (tag : BitVec 16) (feed : BitVec 8) (s : State) : Answer :=
  .next (s.send { tag := tag, kind := 0x42, request := .injectPatternError feed })

/-- WRITE_SPLICE_RECORD (R106). -/
def execWriteSpliceRecord (tag : BitVec 16) (params : SpliceParams) (s : State) : Answer :=
  .next (s.send { tag := tag, kind := 0x50, request := .writeSpliceRecord params })

/-- READ_SPLICE_RECORD (R110). -/
def execReadSpliceRecord (tag : BitVec 16) (index : BitVec 16) (s : State) : Answer :=
  .next (s.send { tag := tag, kind := 0x51, request := .readSpliceRecord index })

/-- START_LANE (R108). -/
def execStartLane (tag : BitVec 16) (lane : BitVec 8) (head : BitVec 16) (s : State) : Answer :=
  .next (s.send { tag := tag, kind := 0x52, request := .startLane lane head })

/-- STOP_LANE (R107). -/
def execStopLane (tag : BitVec 16) (lane : BitVec 8) (s : State) : Answer :=
  .next (s.send { tag := tag, kind := 0x53, request := .stopLane lane })

/-- READ_LANE (R109). -/
def execReadLane (tag : BitVec 16) (lane : BitVec 8) (s : State) : Answer :=
  .next (s.send { tag := tag, kind := 0x54, request := .readLane lane })

/-- SET_REPORTING (R163). -/
def execSetReporting (tag : BitVec 16) (params : ReportingParams) (s : State) : Answer :=
  .next (s.send { tag := tag, kind := 0x60, request := .setReporting params })

/-- LATCH_COUNTERS (R167). -/
def execLatchCounters (tag : BitVec 16) (s : State) : Answer :=
  .next (s.send { tag := tag, kind := 0x61, request := .latchCounters })

/-- READ_COUNTERS (R168). -/
def execReadCounters (tag : BitVec 16) (group : BitVec 8) (s : State) : Answer :=
  .next (s.send { tag := tag, kind := 0x62, request := .readCounters group })

/-- SET_GROUPS (R145). -/
def execSetGroups (tag : BitVec 16) (params : GroupParams) (s : State) : Answer :=
  .next (s.send { tag := tag, kind := 0x70, request := .setGroups params })

/-- SOFT_RESET (R154). -/
def execSoftReset (tag : BitVec 16) (s : State) : Answer :=
  .next (s.send { tag := tag, kind := 0x71, request := .softReset })

end Sys2Proof.Machine
end

