-- ==== Sys2Proof/Machine/Dispatch.lean ====
section
/-! DEFINITION. The dispatch of commands: one arm for each constructor of Instr, each a direct call of its meaning. -/

namespace Sys2Proof.Machine

/-- The effect of a command on everything but the queue. -/
def exec (i : Instr) (s : State) : Host.Outcome State Fault Refusal :=
  match i with
  | .powerUp straps => Sys2Proof.Machine.execPowerUp straps s
  | .slotBoundary order pace => Sys2Proof.Machine.execSlotBoundary order pace s
  | .pendingSlotPeriodTaken => Sys2Proof.Machine.execPendingSlotPeriodTaken s
  | .cycleBoundary order pace => Sys2Proof.Machine.execCycleBoundary order pace s
  | .pendingCycleLengthTaken => Sys2Proof.Machine.execPendingCycleLengthTaken s
  | .secondBoundary pace => Sys2Proof.Machine.execSecondBoundary pace s
  | .epoch order pace => Sys2Proof.Machine.execEpoch order pace s
  | .secondMark pace => Sys2Proof.Machine.execSecondMark pace s
  | .markWindowExpiry => Sys2Proof.Machine.execMarkWindowExpiry s
  | .cellArrival port unit => Sys2Proof.Machine.execCellArrival port unit s
  | .lossDeadlineExpiry port => Sys2Proof.Machine.execLossDeadlineExpiry port s
  | .heldResponsePlaced => Sys2Proof.Machine.execHeldResponsePlaced s
  | .commitResponsePlaced => Sys2Proof.Machine.execCommitResponsePlaced s
  | .outPoint feed entry => Sys2Proof.Machine.execOutPoint feed entry s
  | .inPoint feed entry => Sys2Proof.Machine.execInPoint feed entry s
  | .notice lane => Sys2Proof.Machine.execNotice lane s
  | .arming lane => Sys2Proof.Machine.execArming lane s
  | .windowExpiry feed entry => Sys2Proof.Machine.execWindowExpiry feed entry s
  | .revertStart feed entry => Sys2Proof.Machine.execRevertStart feed entry s
  | .commitSwap feed => Sys2Proof.Machine.execCommitSwap feed s
  | .commitTimeout feed => Sys2Proof.Machine.execCommitTimeout feed s
  | .feedBecomesRunning feed => Sys2Proof.Machine.execFeedBecomesRunning feed s
  | .feedEntersTest feed => Sys2Proof.Machine.execFeedEntersTest feed s
  | .feedLeavesTest feed => Sys2Proof.Machine.execFeedLeavesTest feed s
  | .autoCounterTransfer => Sys2Proof.Machine.execAutoCounterTransfer s
  | .malformedRequest record => Sys2Proof.Machine.execMalformedRequest record s
  | .setSlotPeriod tag int frac => Sys2Proof.Machine.execSetSlotPeriod tag int frac s
  | .setCycleLength tag length => Sys2Proof.Machine.execSetCycleLength tag length s
  | .setEpoch tag value => Sys2Proof.Machine.execSetEpoch tag value s
  | .readTimebase tag => Sys2Proof.Machine.execReadTimebase tag s
  | .setPort tag params => Sys2Proof.Machine.execSetPort tag params s
  | .readPort tag port => Sys2Proof.Machine.execReadPort tag port s
  | .writeMapEntry tag params => Sys2Proof.Machine.execWriteMapEntry tag params s
  | .clearMapEntry tag feeds index => Sys2Proof.Machine.execClearMapEntry tag feeds index s
  | .commitMap tag feeds => Sys2Proof.Machine.execCommitMap tag feeds s
  | .readMapEntry tag feed bank index => Sys2Proof.Machine.execReadMapEntry tag feed bank index s
  | .setFeedRunning tag feed testTag => Sys2Proof.Machine.execSetFeedRunning tag feed testTag s
  | .setFeedDisabled tag feed testTag => Sys2Proof.Machine.execSetFeedDisabled tag feed testTag s
  | .setFeedTest tag feed testTag => Sys2Proof.Machine.execSetFeedTest tag feed testTag s
  | .readFeed tag feed first => Sys2Proof.Machine.execReadFeed tag feed first s
  | .injectPatternError tag feed => Sys2Proof.Machine.execInjectPatternError tag feed s
  | .writeSpliceRecord tag params => Sys2Proof.Machine.execWriteSpliceRecord tag params s
  | .readSpliceRecord tag index => Sys2Proof.Machine.execReadSpliceRecord tag index s
  | .startLane tag lane head => Sys2Proof.Machine.execStartLane tag lane head s
  | .stopLane tag lane => Sys2Proof.Machine.execStopLane tag lane s
  | .readLane tag lane => Sys2Proof.Machine.execReadLane tag lane s
  | .setReporting tag params => Sys2Proof.Machine.execSetReporting tag params s
  | .latchCounters tag => Sys2Proof.Machine.execLatchCounters tag s
  | .readCounters tag group => Sys2Proof.Machine.execReadCounters tag group s
  | .setGroups tag params => Sys2Proof.Machine.execSetGroups tag params s
  | .softReset tag => Sys2Proof.Machine.execSoftReset tag s
  | .stationTick => Sys2Proof.Machine.execStationTick s

end Sys2Proof.Machine
end

