-- ==== Sys2Proof/Safety.lean ====
section
/-! DEFINITION. What a good state and a good step are: the canonical form of the part's stores, the ranges that the spec's
tables give its items, and the conditions under which a request is served at once. -/

namespace Sys2Proof.Machine

/-! ### Canonical form of the addressed stores (log entry 23) -/

/-- The cell store and the stream table are in canonical form. -/
def Store.wf (st : Store) : Bool := Table.sorted st.cells && Table.wf StreamRecord.unused st.streams

/-- The maps of a feed are in canonical form. -/
def FeedMap.wf (m : FeedMap) : Bool :=
  Table.wf MapEntry.unused m.bankA && Table.wf MapEntry.unused m.bankB && Table.wf Live.vacant m.live

/-- No two OPEN stream records name one stream, and every waiting feed is a subscriber (R40, R42). -/
def Store.streamsSound (st : Store) : Prop :=
  (∀ j k, j < 128 → k < 128 → (st.stream j).isOpen = true → (st.stream k).isOpen = true →
    (st.stream j).src = (st.stream k).src → j = k)
    ∧ ∀ k f, hasFeed (st.stream k).waiting f = true → hasFeed (st.stream k).subs f = true

/-- The free pool holds each of the 16384 slots that hold no cell, once, and no other (R38). -/
def Store.poolSound (st : Store) : Prop :=
  st.pool.stack.Nodup ∧ (∀ i, i ∈ st.pool.stack ↔ i < 16384 ∧ st.cell i = none) ∧ ∀ i, (st.cell i).isSome → i < 16384

/-- Every addressed store of the part is in canonical form: the invariant of its memories. -/
def State.wf (s : State) : Bool :=
  s.store.wf && allFeeds.all (fun f => (s.map f).wf) && Table.wf SpliceRecord.blank s.ssu.records

/-! ### Ranges -/

/-- Every live and held counter stays in 0 to 65535 (R164). -/
def Counters.inRange (c : Counters) : Prop := (∀ i : Fin 81, c.live.get i ≤ 65535) ∧ ∀ i : Fin 81, c.held.get i ≤ 65535

/-- The report queue holds at most 32 reports and DropCount stays in 0 to 65535 (R162). -/
def Mlt.reportsInRange (m : Mlt) : Prop := m.reports.length ≤ 32 ∧ m.dropCount ≤ 65535

/-- The ranges of the TBU's items (table before R1), and ExpMark held exactly in LOCKED (R3, R5). -/
def Tbu.inRange (t : Tbu) : Prop :=
  64 ≤ t.slotInt ∧ t.slotInt ≤ 65535 ∧ t.slotFrac ≤ 65535
    ∧ (∀ p, t.pendSlotPeriod = some p → 64 ≤ p.1 ∧ p.1 ≤ 65535 ∧ p.2 ≤ 65535)
    ∧ 256 ≤ t.cycleLen ∧ t.cycleLen ≤ 16384
    ∧ (∀ c, t.pendCycleLen = some c → 256 ≤ c ∧ c ≤ 16384)
    ∧ t.slotIndex < t.cycleLen ∧ t.relockRun ≤ 2
    ∧ (t.refState = .locked ↔ t.expMark.isSome)

/-- The queues of the control path stay in their ranges, and the intake queue holds requests only while REX holds a response
(R148, R150, R160). -/
def State.queuesInRange (s : State) : Prop :=
  s.mgmt.intake.length ≤ 8 ∧ s.mlt.responses.length ≤ 16
    ∧ (s.mgmt.intake ≠ [] → s.mgmt.heldResponse.isSome)

/-! ### When a request is served at once -/

/-- The unit is AWAKE with CP0 in LIVE or ABSENT, REX is IDLE with nothing queued before it, and the response queue has a free
place (R147 to R150, R156). -/
def State.ready (s : State) : Prop :=
  s.hears = true ∧ s.mgmt.heldResponse = none ∧ s.mgmt.intake = [] ∧ s.mlt.responses.length < 16

/-- REX's response to a request that it took: RequestTag, kind code, result, contents (section 8.5, R182). -/
def answerOf (tag : BitVec 16) (kind : Byte) (result : Result) (contents : List Byte) : Response :=
  { tag := tag, kind := kind, result := result, contents := contents }

/-- The request that a request command hands to the CRX: RequestTag, kind code (R181) and record. -/
def takenBy : Instr → Option Taken
  | .malformedRequest record =>
    if (takenOf record).request.wellFormed then none else some (takenOf record)
  | .setSlotPeriod tag int frac => some { tag := tag, kind := 0x10, request := .setSlotPeriod int frac }
  | .setCycleLength tag length => some { tag := tag, kind := 0x11, request := .setCycleLength length }
  | .setEpoch tag value => some { tag := tag, kind := 0x12, request := .setEpoch value }
  | .readTimebase tag => some { tag := tag, kind := 0x13, request := .readTimebase }
  | .setPort tag params => some { tag := tag, kind := 0x20, request := .setPort params }
  | .readPort tag port => some { tag := tag, kind := 0x21, request := .readPort port }
  | .writeMapEntry tag params => some { tag := tag, kind := 0x30, request := .writeMapEntry params }
  | .clearMapEntry tag feeds index => some { tag := tag, kind := 0x31, request := .clearMapEntry feeds index }
  | .commitMap tag feeds => some { tag := tag, kind := 0x32, request := .commitMap feeds }
  | .readMapEntry tag feed bank index => some { tag := tag, kind := 0x33, request := .readMapEntry feed bank index }
  | .setFeedRunning tag feed testTag => some { tag := tag, kind := 0x40, request := .setFeed feed 1 testTag }
  | .setFeedDisabled tag feed testTag => some { tag := tag, kind := 0x40, request := .setFeed feed 0 testTag }
  | .setFeedTest tag feed testTag => some { tag := tag, kind := 0x40, request := .setFeed feed 2 testTag }
  | .readFeed tag feed first => some { tag := tag, kind := 0x41, request := .readFeed feed first }
  | .injectPatternError tag feed => some { tag := tag, kind := 0x42, request := .injectPatternError feed }
  | .writeSpliceRecord tag params => some { tag := tag, kind := 0x50, request := .writeSpliceRecord params }
  | .readSpliceRecord tag index => some { tag := tag, kind := 0x51, request := .readSpliceRecord index }
  | .startLane tag lane head => some { tag := tag, kind := 0x52, request := .startLane lane head }
  | .stopLane tag lane => some { tag := tag, kind := 0x53, request := .stopLane lane }
  | .readLane tag lane => some { tag := tag, kind := 0x54, request := .readLane lane }
  | .setReporting tag params => some { tag := tag, kind := 0x60, request := .setReporting params }
  | .latchCounters tag => some { tag := tag, kind := 0x61, request := .latchCounters }
  | .readCounters tag group => some { tag := tag, kind := 0x62, request := .readCounters group }
  | .setGroups tag params => some { tag := tag, kind := 0x70, request := .setGroups params }
  | .softReset tag => some { tag := tag, kind := 0x71, request := .softReset }
  | .powerUp _ => none
  | .slotBoundary _ _ => none
  | .pendingSlotPeriodTaken => none
  | .cycleBoundary _ _ => none
  | .pendingCycleLengthTaken => none
  | .secondBoundary _ => none
  | .epoch _ _ => none
  | .secondMark _ => none
  | .markWindowExpiry => none
  | .cellArrival _ _ => none
  | .lossDeadlineExpiry _ => none
  | .heldResponsePlaced => none
  | .commitResponsePlaced => none
  | .outPoint _ _ => none
  | .inPoint _ _ => none
  | .notice _ => none
  | .arming _ => none
  | .windowExpiry _ _ => none
  | .revertStart _ _ => none
  | .commitSwap _ => none
  | .commitTimeout _ => none
  | .feedBecomesRunning _ => none
  | .feedEntersTest _ => none
  | .feedLeavesTest _ => none
  | .autoCounterTransfer => none
  | .stationTick => none

/-- Between two commands every ARMED record has a splice that has not ended, and no lane waits to move on (R128): a record
completes at its last outcome and its lane moves on in that instant. -/
def State.settled (s : State) : Prop :=
  (∀ r, (s.record r).status = .armed → (s.record r).startedCount ≠ 0) ∧ s.due.walks = []

end Sys2Proof.Machine
end

