-- ==== Sys2Proof/Certificates/Slice0/Obligations.lean ====
section
/-! DEFINITION. The statements for the provers, each a Prop about the model's machine. Each docstring names the section or rule of
the spec that the statement formalises, and the log entry where a clause is the model's own choice. -/

open Sys2Proof Sys2Proof.Machine

/-! ### The queue of commands -/

/-- A step runs the command at the front of the queue on the state with the queue's rest. The queue, and that an empty queue idles,
are the model's own (log entry 1). -/
def Obligations.StepRunsFrontCommand : Prop :=
  (∀ (c : Instr) (rest : List Instr) (s : State),
      step { s with pending := c :: rest } = exec c { s with pending := rest })
    ∧ ∀ s : State, s.pending = [] → step s = .next s

/-- No command stops the part, and none touches the queue (00_scope.md, Requests, results and responses: a request that cannot be
done is answered; log entry 1). -/
def Obligations.EveryCommandAnswersNextState : Prop :=
  ∀ (c : Instr) (s : State), ∃ t, exec c s = .next t ∧ t.pending = s.pending

/-! ### Power-up and the station tick -/

/-- R17: the TBU's values at power-up, kept whole by a soft reset, which leaves every feed DISABLED; the first slot boundary after
power-up falls at tick 1049. -/
def Obligations.TimebaseAtPowerUpAndSoftReset : Prop :=
  (∀ (straps : BitVec 12) (s : State), ∃ t, exec (.powerUp straps) s = .next t ∧
    t.tbu =
      { tickCount := 0, secNo := 0, refState := .free, nextSecond := 16384000, lastSecond := none, expMark := none,
        relockRun := 0, lastMark := none, slotInt := 1048, slotFrac := 37749, pendSlotPeriod := none, slotPos := 68719477,
        slotIndex := 0, cycleLen := 1024, pendCycleLen := none, cycleNo := 0, pendEpoch := none } ∧
    ∀ n : BitVec 48, n ≤ 1049 →
      (({ t with tbu := { t.tbu with tickCount := n } } : State).slotReached = true ↔ n = 1049))
  ∧ (∀ s : State, s.softReset.tbu = s.tbu ∧ ∀ f, (s.softReset.feed f).state = .disabled)
  ∧ ∀ (tag : BitVec 16) (s : State), s.ready → ∃ t, exec (.softReset tag) s = .next t ∧ t.tbu = s.tbu

/-- Sections 2.8, 3.7, 4.6, 5.6, 6.8, 8.1, 8.2, 8.6, 9.5, 10.1 and the table of chapter 10: every block but the TBU at power-up.
The link's alignment, the cells on the links and what is due are the model's own items (log entries 3, 6, 7). -/
def Obligations.BlocksAtPowerUp : Prop :=
  ∀ (straps : BitVec 12) (s : State), ∃ t, exec (.powerUp straps) s = .next t ∧ t.pending = s.pending ∧
    (∀ p, t.port p =
      { state := if p = 0 then .hunt else .down, goodRun := 0, badRun := 0, winCount := 0, winProg := 0, thinRun := 0,
        fullRun := 0, lossDeadline := if p = 0 then some 163840 else none, align := [],
        settings :=
          { enable := p = 0, quota := if p = 0 then 4096 else 1024, maxAge := 2097152, nomDelay := 0, jitLimit := 65536,
            winLen := 512, winMin := 3, lossTimeout := 160, checkTag := none }
        chkState := .search, chkRun := 0, chkGen := 0x1FFFF }) ∧
    (∀ c, t.counters.live.get c = 0 ∧ t.counters.held.get c = 0 ∧ t.counters.satMark.get c = false) ∧
    (∀ slot, t.store.cell slot = none) ∧ t.store.pool.stack = List.range 16384 ∧
    (∀ p, t.store.occ.get p = 0 ∧ t.store.cong.get p = false) ∧
    (∀ k, (t.store.stream k).isOpen = false ∧ (t.store.stream k).waiting = 0 ∧ (t.store.stream k).head = none
      ∧ (t.store.stream k).tail = none ∧ (t.store.stream k).count = 0 ∧ (t.store.stream k).nextCont = none) ∧
    (∀ f, (t.map f).activeBank = .a ∧ (t.map f).locked = false ∧
      ∀ e, (∀ bank, bankEntry ((t.map f).bank bank) e =
          { used := false, outTag := 0, homeSrc := { port := 0, tag := 0 }, fallSrc := none, share := 1, autoRevert := false,
            revertDelay := 1 }) ∧
        t.live f e =
          { estate := .vacant, curSrc := none, newSrc := none, prevSrc := none, protSrc := none, credit := 0, outCont := 0,
            discPending := false, windowLeft := 0, onMiss := none, owner := none, revertLeft := none }) ∧
    t.commits = [] ∧ t.heldCommits = [] ∧
    (∀ f, t.feed f =
      { state := .disabled, pendMode := .none, testTag := 0, fillCont := 0, gen := 0x1FFFF, patCont := 0,
        injectPending := false, sent := none }) ∧
    (∀ r, t.record r =
      { nextRec := 0, carries := .link, goesOn := false, action := .switch, feeds := 0, outTag := 0,
        newSrc := { port := 0, tag := 0 }, newShare := 1, dueCycle := 0, noticeLead := 0, window := 1, onMiss := .force,
        status := .pending, outcomes := [], marks := [] }) ∧
    (∀ l, t.lane l = { state := .stopped, curRec := 0, linkRun := 0 }) ∧
    t.mgmt = { unitAddr := straps, groups := #v[none, none, none, none], wake := .asleep, intake := [], heldResponse := none } ∧
    t.mlt =
      { responses := [], reports := [], lostPending := false, dropCount := 0, monCont := 0, monFillCont := 0,
        enables := 0x7FF, portEdge := .anyChange, timebaseEdge := .anyChange, patternEdge := .anyChange,
        counterMode := .manual, period := 60, secsLeft := none, transferNo := 0, lastTransfer := none, sent := none }

/-- Section 1.1: TickCount rises by one at each tick, wrapping at 2^48, and a tick changes nothing else of itself but epochPassed,
the model's own mark of its tick (log entry 20). Sections 1.2 and 9.3: at NextSecond, with no epoch pending, SecNo rises by one,
LastSecond takes the tick, NextSecond advances by 16,384,000 and SecsLeft counts down; unless that calls for a counter transfer,
nothing else changes. At another tick the command changes nothing. -/
def Obligations.TicksAndSecondsCount : Prop :=
  (∀ s : State, ∃ t, exec .stationTick s = .next t ∧
     t = { s with tbu := t.tbu, due := { s.due with epochPassed := false } } ∧
     t.tbu = { s.tbu with tickCount := t.tbu.tickCount } ∧ t.tbu.tickCount.toNat = (s.tbu.tickCount.toNat + 1) % 2 ^ 48)
  ∧
  ((∀ s : State, s.tbu.tickCount = s.tbu.nextSecond → s.tbu.pendEpoch = none →
     s.mlt.secsLeft ≠ some 1 → s.mlt.secsLeft ≠ some 0 → ∀ pace,
     exec (.secondBoundary pace) s =
       .next
         { s with
           tbu :=
             { s.tbu with
               secNo := s.tbu.secNo + 1, lastSecond := some s.tbu.tickCount, nextSecond := s.tbu.nextSecond + 16384000 }
           mlt := { s.mlt with secsLeft := s.mlt.secsLeft.map (fun n => n - 1) } }) ∧
   (∀ s : State, s.tbu.tickCount = s.tbu.nextSecond → s.tbu.pendEpoch = none → ∀ pace,
     ∃ t, exec (.secondBoundary pace) s = .next t ∧ t.ports = s.ports ∧
       t.tbu =
         { s.tbu with
           secNo := s.tbu.secNo + 1, lastSecond := some s.tbu.tickCount, nextSecond := s.tbu.nextSecond + 16384000 }) ∧
   ∀ (s : State) (pace : SecondPace), s.tbu.tickCount ≠ s.tbu.nextSecond → exec (.secondBoundary pace) s = .next s)

/-! ### Slots and cycles -/

/-- Sections 1.3 and 1.4: at the first tick at or beyond SlotPos, unless an epoch is taken at that tick, a pending period comes
into force, SlotPos advances by it, and SlotIndex counts, or returns to 0 with CycleNo raised and a pending length taken. At any
other tick the command leaves the TBU alone. No slot boundary changes a port or the control path. -/
def Obligations.SlotBoundaryAdvancesSlotClock : Prop :=
  ∀ (order : List SlotPart) (pace : Pace) (s : State),
    ∃ t, exec (.slotBoundary order pace) s = .next t ∧ t.ports = s.ports ∧ t.mgmt = s.mgmt ∧
      let epoch := s.tbu.tickCount = s.tbu.nextSecond ∧ s.tbu.pendEpoch ≠ none
      let reached := ((s.tbu.tickCount ++ (0 : BitVec 16)) - s.tbu.slotPos).toNat < 65536 ∧ ¬ epoch
      let period := s.tbu.pendSlotPeriod.getD (s.tbu.slotInt, s.tbu.slotFrac)
      let slot :=
        { s.tbu with
          slotInt := period.1, slotFrac := period.2, pendSlotPeriod := none,
          slotPos := s.tbu.slotPos + BitVec.ofNat 64 (period.1 * 65536 + period.2) }
      (reached → s.tbu.slotIndex + 1 < s.tbu.cycleLen → t.tbu = { slot with slotIndex := s.tbu.slotIndex + 1 }) ∧
      (reached → ¬ s.tbu.slotIndex + 1 < s.tbu.cycleLen →
        t.tbu =
          { slot with
            slotIndex := 0, cycleNo := s.tbu.cycleNo + 1, cycleLen := s.tbu.pendCycleLen.getD s.tbu.cycleLen,
            pendCycleLen := none }) ∧
      (¬ reached → t.tbu = s.tbu)

/-- Sections 5.1 and 9.1: at a slot boundary taken whole every feed in RUNNING or TEST sends its cell, a feed in DISABLED or
STARTING sends none, and the monitor link carries one, whatever parties were listed first. Section 5.2: a departure that finds no
eligible entry, as in a RUNNING feed without a live entry, sends a fill cell; FillCont advances and FILL rises by one up to 65535.
What is due, and the cell kept as sent, are the model's own items (log entries 3 and 7). -/
def Obligations.SlotBoundarySendsCellsAndFill : Prop :=
  (∀ (order : List SlotPart) (s : State), s.slotReached = true →
     ∃ t, exec (.slotBoundary order .whole) s = .next t ∧ t.mlt.sent.isSome ∧
       ∀ f, (t.feed f).sent.isSome = true ↔ ((t.feed f).state = .running ∨ (t.feed f).state = .test))
  ∧
  (let fill (cont : BitVec 4) : Cell :=
     { hdr :=
         { kind := .fill, tag := 4095, boundary := false, marked := false, disc := false, cont := cont,
           check := crc8 [0x7F, 0xFC, cont.setWidth 8] }
       payload := List.replicate 156 0 }
   let sends (s t : State) (f : FeedId) : Prop :=
     t.feed f = { s.feed f with fillCont := (s.feed f).fillCont + 1, sent := some (fill (s.feed f).fillCont) }
       ∧ t.counter (.feed f .fill) = min (s.counter (.feed f .fill) + 1) 65535
       ∧ (∀ g, g ≠ f → t.feed g = s.feed g) ∧ t.store = s.store ∧ t.maps = s.maps
   (∀ (s : State) (f : FeedId) (tick : BitVec 32), s.select f = none → sends s (s.sendSelected f tick) f)
   ∧ ∀ (s : State) (f : FeedId), s.slotReached = false → hasFeed s.due.slotFeeds f = true → (s.feed f).state = .running →
       (s.feed f).pendMode ≠ .test → s.liveEntries f = [] →
       ∃ t, exec (.slotBoundary [.feed f] .listed) s = .next t ∧ (t.feed f).sent = some (fill (s.feed f).fillCont)
         ∧ (t.feed f).fillCont = (s.feed f).fillCont + 1 ∧ hasFeed t.due.slotFeeds f = false
         ∧ t.counter (.feed f .fill) = min (s.counter (.feed f .fill) + 1) 65535)

/-- Section 10.1: the cell of a feed in TEST carries TestTag, PatCont and the generator's next 1248 bits, the first inverted when
an error was asked for; the generator runs on true and nothing else of the part changes. Every bit of the sequence is the
exclusive-or of the bits 17 and 14 places before it, and the state is the last 17 bits; from the seed of ones the first six bytes
are 00h, 03h, 80h, 0Fh, C0h and 38h. What is due, and the cell kept as sent, are the model's own items (log entries 3 and 7). -/
def Obligations.PatternCellCarriesSequence : Prop :=
  (∀ (s : State) (f : FeedId), s.slotReached = false → hasFeed s.due.slotFeeds f = true → (s.feed f).state = .test →
     (s.feed f).pendMode = .none →
     ∃ t cell, exec (.slotBoundary [.feed f] .listed) s = .next t ∧
       t = { s.setFeed f (t.feed f) with due := t.due } ∧
       t.feed f =
         { s.feed f with
           gen := (genRun 1248 (s.feed f).gen).2, patCont := (s.feed f).patCont + 1, injectPending := false, sent := some cell } ∧
       cell.hdr.kind = .programme ∧ cell.hdr.tag = (s.feed f).testTag ∧ cell.hdr.boundary = false ∧ cell.hdr.marked = false ∧
       cell.hdr.disc = false ∧ cell.hdr.cont = (s.feed f).patCont ∧
       cell.hdr.check = crc8 (cell.hdr.bytes.take 3) ∧ cell.payload.length = 156 ∧
       ∀ k, k < 1248 →
         (bitsOf cell.payload)[k]? =
           (genRun 1248 (s.feed f).gen).1[k]?.map (fun b => b != ((s.feed f).injectPending && k = 0)))
  ∧
  ((∀ (n : Nat) (g : BitVec 17),
     let before := (List.range 17).map (fun k => g.getLsbD (16 - k))
     let run := before ++ (genRun n g).1
     run.length = n + 17 ∧
     (∀ k, k < n → run.getD (k + 17) false = (run.getD k false ^^ run.getD (k + 3) false)) ∧
     ∀ k, k < 17 → (genRun n g).2.getLsbD k = run.getD (n + 16 - k) false)
   ∧ bytesOfBits 6 (genRun 48 0x1FFFF).1 = [0x00, 0x03, 0x80, 0x0F, 0xC0, 0x38])

/-- Sections 9.1 and 11.4: the monitor link sends the oldest response, else the oldest report, else a fill cell, each with UnitAddr
at the head of its payload and its own run of counts; nothing else changes. What is due, and the cell kept as sent, are the model's
own items (log entries 3 and 7). -/
def Obligations.MonitorCellByPriority : Prop :=
  ∀ s : State, s.slotReached = false → s.due.monitor = true →
    ∃ t cell, exec (.slotBoundary [.monitor] .listed) s = .next t ∧
      t = { s with due := { s.due with monitor := false }, mlt := t.mlt } ∧ t.mlt.sent = some cell ∧
      cell.hdr.check = crc8 (cell.hdr.bytes.take 3) ∧ cell.payload.length = 156 ∧ cell.hdr.boundary = false ∧
      cell.hdr.marked = false ∧ cell.hdr.disc = false ∧
      cell.payload.take 2 = bytesOf 2 s.mgmt.unitAddr.toNat ∧
      (∀ r rest, s.mlt.responses = r :: rest →
        t.mlt = { s.mlt with responses := rest, monCont := s.mlt.monCont + 1, sent := some cell } ∧
        cell.hdr.kind = .control ∧ cell.hdr.tag = 4094 ∧ cell.hdr.cont = s.mlt.monCont ∧
        cell.payload = padTo 156 (r.payload s.mgmt.unitAddr)) ∧
      (∀ q rest, s.mlt.responses = [] → s.mlt.reports = q :: rest →
        t.mlt = { s.mlt with reports := rest, monCont := s.mlt.monCont + 1, sent := some cell } ∧
        cell.hdr.kind = .control ∧ cell.hdr.tag = 4094 ∧ cell.hdr.cont = s.mlt.monCont ∧
        cell.payload = padTo 156 (q.payload s.mgmt.unitAddr)) ∧
      (s.mlt.responses = [] → s.mlt.reports = [] →
        t.mlt = { s.mlt with monFillCont := s.mlt.monFillCont + 1, sent := some cell } ∧
        cell.hdr.kind = .fill ∧ cell.hdr.tag = 4095 ∧ cell.hdr.cont = s.mlt.monFillCont ∧
        cell.payload.drop 2 = List.replicate 154 0)

/-- Sections 1.3, 1.4 and 6.6: at a cycle boundary reached by counting, SlotIndex returns to 0, CycleNo rises by one and a pending
length is taken; every window of a splice or revert falls by one and every pending commit counts the boundary. Taken with no party
listed, the command leaves every other item to the parties (log entries 3 and 27). Sections 1.3, 1.4, 1.6 and 1.7: a pending slot
period is taken at the slot boundary or the epoch whose tick has come, and a pending cycle length at the cycle boundary, by
counting or by an epoch; the boundary is then opened whole, and the value is pending no more. -/
def Obligations.CycleBoundaryCountsAndTakesPendingValues : Prop :=
  (∀ s : State, s.slotReached = true → ¬ s.tbu.slotIndex + 1 < s.tbu.cycleLen →
     (∃ t, exec (.cycleBoundary [] .listed) s = .next t ∧
       t = { s with tbu := t.tbu, maps := t.maps, commits := t.commits, due := t.due } ∧
       (∀ f, (t.map f) = { s.map f with live := (t.map f).live }) ∧
       (∀ f e, t.live f e =
         if (s.live f e).estate = .outWait ∨ (s.live f e).estate = .inWait then
           { s.live f e with windowLeft := (s.live f e).windowLeft - 1 }
         else s.live f e) ∧
       t.commits.map Commit.considered = s.commits.map (fun c => c.considered + 1) ∧
       t.commits.map Commit.feeds = s.commits.map Commit.feeds ∧ t.commits.map Commit.tag = s.commits.map Commit.tag) ∧
     ∀ (order : List CyclePart) (pace : Pace), ∃ t, exec (.cycleBoundary order pace) s = .next t ∧ t.ports = s.ports ∧
       t.tbu =
         { s.tbu with
           slotInt := (s.tbu.pendSlotPeriod.getD (s.tbu.slotInt, s.tbu.slotFrac)).1
           slotFrac := (s.tbu.pendSlotPeriod.getD (s.tbu.slotInt, s.tbu.slotFrac)).2
           pendSlotPeriod := none
           slotPos := s.tbu.slotPos + BitVec.ofNat 64
             ((s.tbu.pendSlotPeriod.getD (s.tbu.slotInt, s.tbu.slotFrac)).1 * 65536
               + (s.tbu.pendSlotPeriod.getD (s.tbu.slotInt, s.tbu.slotFrac)).2)
           slotIndex := 0, cycleNo := s.tbu.cycleNo + 1
           cycleLen := s.tbu.pendCycleLen.getD s.tbu.cycleLen, pendCycleLen := none })
  ∧
  ((∀ (s : State) (p : Nat × Nat), s.tbu.pendSlotPeriod = some p → s.slotReached = true →
     ∃ t, exec .pendingSlotPeriodTaken s = .next t ∧ exec (.slotBoundary [] .listed) s = .next t ∧ t.tbu.slotInt = p.1 ∧
       t.tbu.slotFrac = p.2 ∧ t.tbu.pendSlotPeriod = none ∧
       t.tbu.slotPos = s.tbu.slotPos + BitVec.ofNat 64 (p.1 * 65536 + p.2) ∧ t.ports = s.ports ∧ t.feeds = s.feeds) ∧
   (∀ (s : State) (p : Nat × Nat) (v : BitVec 16), s.tbu.pendSlotPeriod = some p → s.tbu.tickCount = s.tbu.nextSecond →
     s.tbu.pendEpoch = some v →
     ∃ t, exec .pendingSlotPeriodTaken s = .next t ∧ exec (.epoch [] .listed) s = .next t ∧ t.tbu.slotInt = p.1 ∧
       t.tbu.slotFrac = p.2 ∧ t.tbu.pendSlotPeriod = none ∧ t.tbu.pendEpoch = none ∧ t.tbu.cycleNo = v ∧ t.ports = s.ports ∧
       t.feeds = s.feeds) ∧
   (∀ (s : State) (c : Nat), s.tbu.pendCycleLen = some c → s.slotReached = true → ¬ s.tbu.slotIndex + 1 < s.tbu.cycleLen →
     ∃ t, exec .pendingCycleLengthTaken s = .next t ∧ t.tbu.cycleLen = c ∧ t.tbu.pendCycleLen = none ∧ t.tbu.slotIndex = 0 ∧
       t.tbu.cycleNo = s.tbu.cycleNo + 1 ∧ t.ports = s.ports ∧ t.feeds = s.feeds) ∧
   ∀ (s : State) (c : Nat) (v : BitVec 16), s.tbu.pendCycleLen = some c → s.tbu.tickCount = s.tbu.nextSecond →
     s.tbu.pendEpoch = some v →
     ∃ t, exec .pendingCycleLengthTaken s = .next t ∧ t.tbu.cycleLen = c ∧ t.tbu.pendCycleLen = none ∧ t.tbu.slotIndex = 0 ∧
       t.tbu.cycleNo = v ∧ t.ports = s.ports ∧ t.feeds = s.feeds)

/-! ### Seconds, epochs and marks -/

/-- Section 1.6: at a second boundary at NextSecond a pending epoch sets CycleNo and SlotIndex, takes a pending period and length
and restarts the slot phase at the boundary's tick; no link carries a cell at it and no slot boundary falls at it. The second
boundary and its epoch are one change of the TBU. What is due, and the cell kept as sent, are the model's own items (log entries 3
and 7). -/
def Obligations.EpochRestartsCycleAndSlots : Prop :=
  ∀ (s : State) (v : BitVec 16), s.tbu.tickCount = s.tbu.nextSecond → s.tbu.pendEpoch = some v →
    let period := s.tbu.pendSlotPeriod.getD (s.tbu.slotInt, s.tbu.slotFrac)
    let epoch (t : State) : Prop :=
      t.tbu =
        { s.tbu with
          secNo := s.tbu.secNo + 1, lastSecond := some s.tbu.tickCount, nextSecond := s.tbu.nextSecond + 16384000,
          cycleNo := v, slotIndex := 0, pendEpoch := none, slotInt := period.1, slotFrac := period.2, pendSlotPeriod := none,
          slotPos := (s.tbu.tickCount ++ (0 : BitVec 16)) + BitVec.ofNat 64 (period.1 * 65536 + period.2),
          cycleLen := s.tbu.pendCycleLen.getD s.tbu.cycleLen, pendCycleLen := none }
      ∧ (∀ f, (t.feed f).sent = (s.feed f).sent) ∧ t.mlt.sent = s.mlt.sent ∧ t.ports = s.ports
    s.slotReached = false ∧
    (∀ (order : List CyclePart) (pace : Pace), ∃ t, exec (.epoch order pace) s = .next t ∧ epoch t) ∧
    ∀ pace : SecondPace, ∃ t, exec (.secondBoundary pace) s = .next t ∧ epoch t

/-- Section 1.2: the first mark in FREE moves RefState to LOCKED, hands the change to the MLT and re-phases the second boundaries
to the mark, with a second boundary at it unless one was taken within 64 ticks before it. A mark within 64 ticks of ExpMark in
LOCKED re-phases them to it and reports nothing; any other mark in LOCKED is ignored. That no mark with an epoch falls at a tick
whose slot boundary was taken with that epoch pending is log entry 20. -/
def Obligations.SecondMarksInFreeAndLocked : Prop :=
  (∀ s : State, s.tbu.refState = .free →
     let boundary := ∀ l, s.tbu.lastSecond = some l → 64 < (s.tbu.tickCount - l).toNat
     let u := s.handReport (.timebaseState .free .locked)
     let rephased := { s.tbu with
       refState := .locked, nextSecond := s.tbu.tickCount + 16384000, expMark := some (s.tbu.tickCount + 16384000) }
     ∀ pace : SecondPace,
     (boundary → s.tbu.pendEpoch = none → s.due.epochPassed = false → ∃ t, exec (.secondMark pace) s = .next t ∧
       t.tbu = { rephased with secNo := s.tbu.secNo + 1, lastSecond := some s.tbu.tickCount } ∧
       (s.mlt.secsLeft ≠ some 1 → s.mlt.secsLeft ≠ some 0 → t = { s with tbu := t.tbu, mlt := t.mlt } ∧
         t.mlt = { u.mlt with secsLeft := s.mlt.secsLeft.map (fun n => n - 1) })) ∧
     (¬ boundary → exec (.secondMark pace) s = .next { u with tbu := rephased }) ∧
     (boundary → s.due.epochPassed = true → exec (.secondMark pace) s = .next s))
  ∧
  (∀ (s : State) (e : BitVec 48), s.tbu.refState = .locked → s.tbu.expMark = some e →
     let boundary := ∀ l, s.tbu.lastSecond = some l → 64 < (s.tbu.tickCount - l).toNat
     let early := (e - s.tbu.tickCount).toNat
     let late := (s.tbu.tickCount - e).toNat
     let rephased := { s.tbu with
       nextSecond := s.tbu.tickCount + 16384000, expMark := some (s.tbu.tickCount + 16384000) }
     ∀ pace : SecondPace,
     (early ≤ 64 ∨ late ≤ 64 →
       (boundary → s.tbu.pendEpoch = none → s.due.epochPassed = false → ∃ t, exec (.secondMark pace) s = .next t ∧
         t.tbu = { rephased with secNo := s.tbu.secNo + 1, lastSecond := some s.tbu.tickCount } ∧
         (s.mlt.secsLeft ≠ some 1 → s.mlt.secsLeft ≠ some 0 → t = { s with tbu := t.tbu, mlt := t.mlt } ∧
           t.mlt = { s.mlt with secsLeft := s.mlt.secsLeft.map (fun n => n - 1) })) ∧
       (¬ boundary → exec (.secondMark pace) s = .next { s with tbu := rephased })) ∧
     (64 < early ∧ 64 < late → exec (.secondMark pace) s = .next s))

/-- Section 1.2: in HOLDOVER three marks spaced by one second give or take 64 ticks lock the timebase again, and a mark that is not
well spaced begins a new run. 65 ticks after ExpMark, with no mark taken in the window, a LOCKED timebase goes into HOLDOVER and
the change is handed to the MLT; at any other tick, or in another RefState, the expiry changes nothing. That no mark with an epoch
falls at a tick whose slot boundary was taken with that epoch pending is log entry 20. -/
def Obligations.HoldoverEnteredAndLeft : Prop :=
  (∀ s : State, s.tbu.refState = .holdover →
     let spaced := ∃ l, s.tbu.lastMark = some l ∧ 16383936 ≤ (s.tbu.tickCount - l).toNat ∧ (s.tbu.tickCount - l).toNat ≤ 16384064
     let run (n : Nat) := { s with tbu := { s.tbu with relockRun := n, lastMark := some s.tbu.tickCount } }
     let boundary := ∀ l, s.tbu.lastSecond = some l → 64 < (s.tbu.tickCount - l).toNat
     ∀ pace : SecondPace,
     (s.tbu.relockRun = 0 ∨ ¬ spaced → exec (.secondMark pace) s = .next (run 1)) ∧
     (s.tbu.relockRun = 1 → spaced → exec (.secondMark pace) s = .next (run 2)) ∧
     (s.tbu.relockRun = 2 → spaced → s.tbu.pendEpoch = none → s.due.epochPassed = false →
       ∃ t, exec (.secondMark pace) s = .next t ∧
       (s.mlt.secsLeft ≠ some 1 → s.mlt.secsLeft ≠ some 0 → t = { s with tbu := t.tbu, mlt := t.mlt } ∧
         t.mlt.reports = (s.handReport (.timebaseState .holdover .locked)).mlt.reports) ∧
       t.tbu =
         { s.tbu with
           refState := .locked, relockRun := 0, lastMark := none, nextSecond := s.tbu.tickCount + 16384000,
           expMark := some (s.tbu.tickCount + 16384000), secNo := t.tbu.secNo, lastSecond := t.tbu.lastSecond } ∧
       (boundary → t.tbu.secNo = s.tbu.secNo + 1 ∧ t.tbu.lastSecond = some s.tbu.tickCount) ∧
       (¬ boundary → t.tbu.secNo = s.tbu.secNo ∧ t.tbu.lastSecond = s.tbu.lastSecond)))
  ∧
  ((∀ (s : State) (e : BitVec 48), s.tbu.refState = .locked → s.tbu.expMark = some e → s.tbu.tickCount = e + 65 →
     exec .markWindowExpiry s =
       .next
         { s.handReport (.timebaseState .locked .holdover) with
           tbu := { s.tbu with refState := .holdover, expMark := none, relockRun := 0, lastMark := none } }) ∧
   (∀ s : State, s.tbu.refState ≠ .locked → exec .markWindowExpiry s = .next s) ∧
   ∀ (s : State) (e : BitVec 48), s.tbu.expMark = some e → s.tbu.tickCount ≠ e + 65 → exec .markWindowExpiry s = .next s)

/-! ### Counter periods -/

/-- Section 9.3: a transfer moves every live counter to its held counter, clears the live counters and the saturation marks, raises
TransferNo and keeps the instant. In AUTO it is made within the second boundary that brings SecsLeft to 0, with SecsLeft at Period
again and a COUNTER-REPORT handed; at another time, or in MANUAL, the command changes nothing. The place of the transfer before an
epoch of that boundary, with the CycleNo before it, or after it is the pace, the model's own (log entry 3). A live counter stops at
65535; when it gets there from below with its SatMark clear, the mark is set and COUNTER-SATURATED is handed with the TransferNo of
the period; no other counter moves. -/
def Obligations.CountersSaturateAndTransfer : Prop :=
  ((∀ s : State, s.tbu.tickCount = s.tbu.nextSecond → s.mlt.counterMode = .auto → s.mlt.secsLeft = some 1 →
     let no := s.mlt.transferNo + 1
     let sec := s.tbu.secNo + 1
     let moved : State :=
       { s with
         tbu := { s.tbu with secNo := sec, lastSecond := some s.tbu.tickCount, nextSecond := s.tbu.nextSecond + 16384000 }
         counters := { live := Vector.replicate 81 0, held := s.counters.live, satMark := Vector.replicate 81 false }
         mlt :=
           { s.mlt with transferNo := no, lastTransfer := some (sec, s.tbu.cycleNo), secsLeft := some s.mlt.period } }
     let after := moved.handReport
       (.counterReport no sec s.tbu.cycleNo s.mlt.period (s.counters.live.map (fun v => v ≠ 0)))
     (s.tbu.pendEpoch = none →
       exec .autoCounterTransfer s = .next after ∧ ∀ pace, exec (.secondBoundary pace) s = .next after) ∧
     (∃ t, exec .autoCounterTransfer s = .next t ∧ exec (.secondBoundary .transferFirst) s = .next t ∧
       t.mlt = after.mlt ∧ t.counters = after.counters) ∧
     ∀ v, s.tbu.pendEpoch = some v →
       ∃ t, exec (.secondBoundary .epochFirst) s = .next t ∧ t.mlt.transferNo = no ∧
         t.mlt.lastTransfer = some (sec, v) ∧ t.mlt.secsLeft = some s.mlt.period ∧ t.counters = after.counters) ∧
   ∀ s : State,
     s.tbu.tickCount ≠ s.tbu.nextSecond ∨ s.mlt.counterMode = .manual ∨
       (s.mlt.secsLeft ≠ some 1 ∧ s.mlt.secsLeft ≠ some 0) →
     exec .autoCounterTransfer s = .next s)
  ∧
  (∀ (s : State) (c : CounterId) (n : Nat),
     let t := s.count c n
     t.counter c = min (s.counter c + n) 65535 ∧ (∀ d, d ≠ c → t.counter d = s.counter d) ∧
     t.counters.held = s.counters.held ∧
     (t.counter c = 65535 ∧ s.counter c < 65535 ∧ s.counters.satMark.get c.index = false →
       t.counters.satMark.get c.index = true ∧
       t.mlt = (s.handReport (.counterSaturated c.index.val s.mlt.transferNo)).mlt) ∧
     (¬ (t.counter c = 65535 ∧ s.counter c < 65535 ∧ s.counters.satMark.get c.index = false) →
       t.counters.satMark = s.counters.satMark ∧ t.mlt = s.mlt))

/-- R167: LATCH-COUNTERS makes a transfer in MANUAL and answers OK with TransferNo and LastTransfer, handing no report; in AUTO it
is refused with STATE and no transfer is made. -/
def Obligations.LatchCountersTransfersInManual : Prop :=
  ∀ (tag : BitVec 16) (s : State), s.ready →
    (s.mlt.counterMode = .manual →
      exec (.latchCounters tag) s =
        .next
          (State.placeResponse
            { s with
              counters := { live := Vector.replicate 81 0, held := s.counters.live, satMark := Vector.replicate 81 false }
              mlt :=
                { s.mlt with
                  transferNo := s.mlt.transferNo + 1, lastTransfer := some (s.tbu.secNo, s.tbu.cycleNo) } }
            (answerOf tag 0x61 .ok
              (bytesOf 2 (s.mlt.transferNo + 1).toNat ++ [1] ++ bytesOf 4 s.tbu.secNo.toNat ++ bytesOf 2 s.tbu.cycleNo.toNat)))) ∧
    (s.mlt.counterMode = .auto → exec (.latchCounters tag) s = .next (s.placeResponse (answerOf tag 0x61 .state [])))

/-- Section 9.2: an admitted event joins the report queue with its stamps, and with the Lost flag and DropCount when reports were
lost before it; a full queue drops it and counts the drop; an event that is not admitted changes nothing. -/
def Obligations.ReportQueueKeepsOrDrops : Prop :=
  ∀ (s : State) (r : Report),
    let admitted := s.mlt.enables.getLsbD r.kind.code = true ∧
      (∀ p old new, r = .portState p old new → s.mlt.portEdge = .anyChange ∨ old = .live) ∧
      (∀ old new, r = .timebaseState old new → s.mlt.timebaseEdge = .anyChange ∨ old = .locked) ∧
      (∀ p old new, r = .patternState p old new → s.mlt.patternEdge = .anyChange ∨ old = .locked)
    (¬ admitted → s.handReport r = s) ∧
    (admitted → s.mlt.reports.length < 32 →
      s.handReport r =
        { s with
          mlt :=
            { s.mlt with
              reports := s.mlt.reports ++
                [{ report := r, tick := s.tbu.tickCount.setWidth 32, cycle := s.tbu.cycleNo, lost := s.mlt.lostPending,
                   dropCount := if s.mlt.lostPending then s.mlt.dropCount else 0 }]
              lostPending := false, dropCount := 0 } }) ∧
    (admitted → ¬ s.mlt.reports.length < 32 →
      s.handReport r = { s with mlt := { s.mlt with lostPending := true, dropCount := min (s.mlt.dropCount + 1) 65535 } })

/-! ### Contribution ports -/

/-- Sections 2.1, 2.3 and 2.6: a port in DOWN examines nothing. In HUNT a correct header raises GoodRun, and a bad one clears it
and slips the alignment by one byte; the sixth in a row makes the port LIVE with every run and window count 0. In LOST the next 160
bytes begin a hunt. Every arrival moves the loss deadline and none of these is routed or counted. In LIVE and ABSENT a bad header
is counted in HDR-ERR and in BadRun and the unit goes nowhere; the fourth in a row returns the port to HUNT with every run and
window count 0 and the alignment slipped by one byte. How the bytes of a slipped unit are held is the model's own (log entry 6). -/
def Obligations.DelineationFindsAndLosesAlignment : Prop :=
  (∀ (s : State) (p : PortId) (unit : List Byte), unit.length = 160 →
     let q := s.port p
     let u := if q.align = [] then unit else q.align ++ [unit.getD 159 0]
     let good (x : List Byte) : Prop := crc8 (x.take 3) = x.getD 3 0
     let deadline := some (s.tbu.tickCount + BitVec.ofNat 48 (q.settings.lossTimeout * 1024))
     (q.state = .down → exec (.cellArrival p unit) s = .next s) ∧
     (q.state = .hunt → good u → q.goodRun ≠ 5 →
       exec (.cellArrival p unit) s =
         .next (s.setPort p { q with lossDeadline := deadline, goodRun := q.goodRun + 1, align := [] })) ∧
     (q.state = .hunt → good u → q.goodRun = 5 →
       ∃ t, exec (.cellArrival p unit) s = .next t ∧ t.counters = s.counters ∧ t.store = s.store ∧ t.mgmt = s.mgmt ∧
         t.ports = upd s.ports p
           { q with
             state := .live, lossDeadline := deadline, goodRun := 0, badRun := 0, winCount := 0, winProg := 0, thinRun := 0,
             fullRun := 0, align := [] } ∧
         t.mlt = (s.handReport (.portState p .hunt .live)).mlt) ∧
     (q.state = .hunt → ¬ good u →
       exec (.cellArrival p unit) s =
         .next (s.setPort p { q with lossDeadline := deadline, goodRun := 0, align := u.drop 1 })) ∧
     (q.state = .lost →
       exec (.cellArrival p unit) s =
         .next ((s.setPort p
           { q with
             state := .hunt, lossDeadline := deadline, goodRun := if crc8 (unit.take 3) = unit.getD 3 0 then 1 else 0,
             align := if crc8 (unit.take 3) = unit.getD 3 0 then [] else unit.drop 1 }).handReport (.portState p .lost .hunt))))
  ∧
  (∀ (s : State) (p : PortId) (unit : List Byte), unit.length = 160 →
     (s.port p).state = .live ∨ (s.port p).state = .absent →
     let q := s.port p
     let u := if q.align = [] then unit else q.align ++ [unit.getD 159 0]
     let deadline := some (s.tbu.tickCount + BitVec.ofNat 48 (q.settings.lossTimeout * 1024))
     crc8 (u.take 3) ≠ u.getD 3 0 →
     ∃ t, exec (.cellArrival p unit) s = .next t ∧
       t.counter (.port p .hdrErr) = min (s.counter (.port p .hdrErr) + 1) 65535 ∧
       (q.badRun ≠ 3 →
         t.ports = upd s.ports p { q with lossDeadline := deadline, badRun := q.badRun + 1, align := [] } ∧
         t.store = s.store ∧ t.maps = s.maps ∧ t.ssu = s.ssu ∧ t.mgmt = s.mgmt) ∧
       (q.badRun = 3 →
         t.ports = upd s.ports p
           { q with
             state := .hunt, lossDeadline := deadline, goodRun := 0, badRun := 0, winCount := 0, winProg := 0, thinRun := 0,
             fullRun := 0, align := u.drop 1 } ∧ t.mgmt = s.mgmt))

/-- Sections 2.3 to 2.5: a cell that is routed nowhere (FILL, Kind and Tag in disagreement, or CONTROL or ADDRESS on another port
than CP0) is counted in the window as good and not PROGRAMME; a window that reaches WinLen closes, two thin ones in LIVE make the
port ABSENT and two full ones in ABSENT make it LIVE. That a port change is reported before its source protection is log entry 15.
-/
def Obligations.WindowsJudgeContribution : Prop :=
  ∀ (s : State) (p : PortId) (unit : List Byte), unit.length = 160 → (s.port p).align = [] →
    crc8 (unit.take 3) = unit.getD 3 0 →
    (unitHeader unit).kind = .fill ∨ kindTagAgree (unitHeader unit) = false ∨
      ((unitHeader unit).kind ≠ .programme ∧ p ≠ 0) →
    let q := s.port p
    let heard := { q with
      lossDeadline := some (s.tbu.tickCount + BitVec.ofNat 48 (q.settings.lossTimeout * 1024)), badRun := 0, align := [] }
    let closed := { heard with winCount := 0, winProg := 0 }
    let full := q.settings.winMin ≤ q.winProg
    let ends := q.settings.winLen ≤ q.winCount + 1
    ((q.state = .live ∨ q.state = .absent) → ¬ ends →
      exec (.cellArrival p unit) s = .next (s.setPort p { heard with winCount := q.winCount + 1 })) ∧
    (q.state = .live → ends → full →
      exec (.cellArrival p unit) s = .next (s.setPort p { closed with thinRun := 0 })) ∧
    (q.state = .live → ends → ¬ full → q.thinRun ≠ 1 →
      exec (.cellArrival p unit) s = .next (s.setPort p { closed with thinRun := q.thinRun + 1 })) ∧
    (q.state = .live → ends → ¬ full → q.thinRun = 1 →
      exec (.cellArrival p unit) s =
        .next (((s.setPort p { closed with state := .absent, thinRun := 0, fullRun := 0 }).handReport
          (.portState p .live .absent)).portFailed p)) ∧
    (q.state = .absent → ends → ¬ full →
      exec (.cellArrival p unit) s = .next (s.setPort p { closed with fullRun := 0 })) ∧
    (q.state = .absent → ends → full → q.fullRun ≠ 1 →
      exec (.cellArrival p unit) s = .next (s.setPort p { closed with fullRun := q.fullRun + 1 })) ∧
    (q.state = .absent → ends → full → q.fullRun = 1 →
      exec (.cellArrival p unit) s =
        .next (((s.setPort p { closed with state := .live, thinRun := 0, fullRun := 0 }).handReport
          (.portState p .absent .live)).portReturned p))

/-- Sections 2.4 and 8.2 to 8.4: on CP0 each ADDRESS cell wakes the unit or puts it to sleep by the addresses it lists; a CONTROL
cell goes unheard while ASLEEP. The window counts each. While AWAKE the request of a CONTROL cell is taken, with the RequestTag and
the kind at their places in the payload: served at once with REX IDLE, its response placed or held, queued while REX holds a
response, an overrun beyond 8. That REX takes it when its cell's arrival has been applied whole, so that a response shows the cell
counted, is log entry 35. -/
def Obligations.AddressAndControlCellsOnCP0 : Prop :=
  ∀ (s : State) (unit : List Byte), unit.length = 160 → (s.port 0).align = [] →
    (s.port 0).state = .live ∨ (s.port 0).state = .absent → (s.port 0).winCount + 1 < (s.port 0).settings.winLen →
    crc8 (unit.take 3) = unit.getD 3 0 → (unitHeader unit).tag = 4094 →
    let q := s.port 0
    let heard := s.setPort 0
      { q with
        lossDeadline := some (s.tbu.tickCount + BitVec.ofNat 48 (q.settings.lossTimeout * 1024)), badRun := 0, align := [],
        winCount := q.winCount + 1 }
    let r := takenOf (unit.drop 4)
    let listed (a : BitVec 12) : Prop := ∃ l, addressesOf (unit.drop 4) = some l ∧ a ∈ l
    let woken := listed 4095 ∨ (1 ≤ s.mgmt.unitAddr.toNat ∧ s.mgmt.unitAddr.toNat ≤ 4094 ∧ listed s.mgmt.unitAddr) ∨
      ∃ g, some g ∈ s.mgmt.groups.toList ∧ listed g
    ((unitHeader unit).kind = .address → woken →
      exec (.cellArrival 0 unit) s = .next { heard with mgmt := { s.mgmt with wake := .awake } }) ∧
    ((unitHeader unit).kind = .address → ¬ woken →
      exec (.cellArrival 0 unit) s = .next { heard with mgmt := { s.mgmt with wake := .asleep } }) ∧
    ((unitHeader unit).kind = .control → s.mgmt.wake = .asleep → exec (.cellArrival 0 unit) s = .next heard) ∧
    ((unitHeader unit).kind = .control → s.mgmt.wake = .awake →
      r.tag.toNat = (unit.getD 4 0).toNat * 256 + (unit.getD 5 0).toNat ∧ r.kind = unit.getD 6 0 ∧
      exec (.cellArrival 0 unit) s = .next (heard.takeIn r) ∧
      (s.mgmt.heldResponse = none → s.mgmt.intake = [] → ∀ u,
        (heard.judgeRequest r = (u, none) → exec (.cellArrival 0 unit) s = .next u) ∧
        ∀ res l, heard.judgeRequest r = (u, some (res, l)) →
          (u.mlt.responses.length < 16 →
            exec (.cellArrival 0 unit) s = .next (u.placeResponse (answerOf r.tag r.kind res l))) ∧
          (16 ≤ u.mlt.responses.length →
            exec (.cellArrival 0 unit) s =
              .next { u with mgmt := { u.mgmt with heldResponse := some (answerOf r.tag r.kind res l) } })) ∧
      (s.mgmt.heldResponse.isSome → s.mgmt.intake.length < 8 →
        exec (.cellArrival 0 unit) s = .next { heard with mgmt := { s.mgmt with intake := s.mgmt.intake ++ [r] } }) ∧
      (8 ≤ s.mgmt.intake.length → s.mlt.responses.length < 16 →
        exec (.cellArrival 0 unit) s = .next (heard.placeResponse (answerOf r.tag r.kind .overrun []))) ∧
      (8 ≤ s.mgmt.intake.length → 16 ≤ s.mlt.responses.length → exec (.cellArrival 0 unit) s = .next heard))

/-- Sections 3.4 and 3.5: a programme cell of an OPEN stream that finds room takes the top slot of the free pool with the record's
Subscribers as its Holders; the stream's NextCont, Count and chain and the port's Occ follow, and a broken continuity is counted.
-/
def Obligations.ProgrammeCellStored : Prop :=
  ∀ (s : State) (p : PortId) (unit : List Byte) (k slot : Nat) (pool : FreePool), unit.length = 160 → (s.port p).align = [] →
    (s.port p).state = .live ∨ (s.port p).state = .absent → (s.port p).winCount + 1 < (s.port p).settings.winLen →
    crc8 (unit.take 3) = unit.getD 3 0 → (unitHeader unit).kind = .programme → (unitHeader unit).tag.toNat ≤ 4093 →
    (s.port p).settings.checkTag ≠ some (unitHeader unit).tag →
    s.store.openAt { port := p, tag := (unitHeader unit).tag } = some k → s.store.pool.pop = some (slot, pool) →
    s.store.occ.get p < (s.port p).settings.quota → s.store.poolSound →
    let r := s.store.stream k
    ∃ t, exec (.cellArrival p unit) s = .next t ∧
      t.store.cell slot =
        some
          { hdr := unitHeader unit, payload := unit.drop 4, arriveTick := s.tbu.tickCount.setWidth 32, port := p, stream := k,
            next := none, holders := r.subs } ∧
      (t.store.stream k).nextCont = some ((unitHeader unit).cont + 1) ∧
      t.counter (.port p .contErr) =
        (if r.nextCont = none ∨ r.nextCont = some (unitHeader unit).cont then s.counter (.port p .contErr)
         else min (s.counter (.port p .contErr) + 1) 65535) ∧
      (r.waiting = 0 →
        t.store.pool = pool ∧ t.store.occ.get p = s.store.occ.get p + 1 ∧
        t.store.stream k =
          { r with
            head := if r.tail = none then some slot else r.head, tail := some slot, count := r.count + 1,
            nextCont := some ((unitHeader unit).cont + 1) } ∧
        (∀ j, j ≠ k → t.store.stream j = s.store.stream j) ∧
        (∀ j, j ≠ slot → t.store.cell j =
          (s.store.cell j).map (fun c => if r.tail = some j then { c with next := some slot } else c)) ∧
        (∀ o, o ≠ p → t.store.occ.get o = s.store.occ.get o))

/-- Sections 3.4 and 2.4: a programme cell of a stream that no OPEN record matches leaves no trace in the store; one of an OPEN
stream that finds Occ at Quota or the pool empty is an overflow: OVERFLOW rises, the port is congested, NextCont follows the cell,
and no slot, chain or count moves. -/
def Obligations.ProgrammeCellUnmatchedOrOverflowing : Prop :=
  ∀ (s : State) (p : PortId) (unit : List Byte), unit.length = 160 → (s.port p).align = [] →
    (s.port p).state = .live ∨ (s.port p).state = .absent → (s.port p).winCount + 1 < (s.port p).settings.winLen →
    crc8 (unit.take 3) = unit.getD 3 0 → (unitHeader unit).kind = .programme → (unitHeader unit).tag.toNat ≤ 4093 →
    (s.port p).settings.checkTag ≠ some (unitHeader unit).tag →
    let q := s.port p
    let heard := { q with
      lossDeadline := some (s.tbu.tickCount + BitVec.ofNat 48 (q.settings.lossTimeout * 1024)), badRun := 0, align := [],
      winCount := q.winCount + 1, winProg := q.winProg + 1 }
    (s.store.openAt { port := p, tag := (unitHeader unit).tag } = none →
      exec (.cellArrival p unit) s = .next (s.setPort p heard)) ∧
    ∀ k, s.store.openAt { port := p, tag := (unitHeader unit).tag } = some k →
      q.settings.quota ≤ s.store.occ.get p ∨ s.store.pool.pop = none →
      ∃ t, exec (.cellArrival p unit) s = .next t ∧ t.ports = upd s.ports p heard ∧
        t.store =
          { s.store.setStream k { s.store.stream k with nextCont := some ((unitHeader unit).cont + 1) } with
            cong := upd s.store.cong p true } ∧
        t.counter (.port p .overflow) = min (s.counter (.port p .overflow) + 1) 65535 ∧
        (∀ c, c ≠ .port p .overflow → t.counter c = s.counter c) ∧ t.maps = s.maps

/-- Section 2.6: at the loss deadline a port in HUNT, LIVE or ABSENT becomes LOST with its runs and window counts 0 and no
deadline, and the change is handed on; source protection follows when it was LIVE. At another tick, or in DOWN or LOST, nothing
happens. That a port change is reported before its source protection is log entry 15. -/
def Obligations.LossDeadlineMakesPortLost : Prop :=
  ∀ (s : State) (p : PortId),
    let q := s.port p
    let lost := s.setPort p
      { q with
        state := .lost, lossDeadline := none, goodRun := 0, badRun := 0, winCount := 0, winProg := 0, thinRun := 0, fullRun := 0,
        align := [] }
    (q.lossDeadline = some s.tbu.tickCount → q.state = .hunt ∨ q.state = .absent →
      exec (.lossDeadlineExpiry p) s = .next (lost.handReport (.portState p q.state .lost))) ∧
    (q.lossDeadline = some s.tbu.tickCount → q.state = .live →
      exec (.lossDeadlineExpiry p) s = .next ((lost.handReport (.portState p .live .lost)).portFailed p)) ∧
    (q.lossDeadline ≠ some s.tbu.tickCount ∨ q.state = .down ∨ q.state = .lost → exec (.lossDeadlineExpiry p) s = .next s)

/-- Section 10.2: a PROGRAMME cell on the port's CheckTag goes to the pattern checker and not to the store. In SEARCH each cell is
judged against the sequence that its own first 17 bits begin, and the second pass in a row locks the checker; in LOCKED every bit
is predicted, the mismatches are added to PATTERN-ERR, and the second cell in a row with more than 64 returns the checker to
SEARCH. That a COUNTER-SATURATED of the same cell is handed before its PATTERN-STATE is log entry 29. -/
def Obligations.CheckerJudgesPatternCells : Prop :=
  ∀ (s : State) (p : PortId) (unit : List Byte), unit.length = 160 → (s.port p).align = [] →
    (s.port p).state = .live ∨ (s.port p).state = .absent → (s.port p).winCount + 1 < (s.port p).settings.winLen →
    crc8 (unit.take 3) = unit.getD 3 0 → (unitHeader unit).kind = .programme → (unitHeader unit).tag.toNat ≤ 4093 →
    (s.port p).settings.checkTag = some (unitHeader unit).tag →
    let q := s.port p
    let heard := { q with
      lossDeadline := some (s.tbu.tickCount + BitVec.ofNat 48 (q.settings.lossTimeout * 1024)), badRun := 0, align := [],
      winCount := q.winCount + 1, winProg := q.winProg + 1 }
    let bits := bitsOf (unit.drop 4)
    let wrong (a b : List Bool) : Nat := ((a.zip b).filter (fun x => x.1 != x.2)).length
    ∀ seed : BitVec 17, (∀ k, k < 17 → seed.getLsbD (16 - k) = bits.getD k false) →
    let guess := genRun 1231 seed
    let own := genRun 1248 q.chkGen
    let passed := wrong guess.1 (bits.drop 17) ≤ 4
    let missed := wrong own.1 bits
    (q.chkState = .search → passed → q.chkRun ≠ 1 →
      exec (.cellArrival p unit) s = .next (s.setPort p { heard with chkRun := q.chkRun + 1 })) ∧
    (q.chkState = .search → passed → q.chkRun = 1 →
      exec (.cellArrival p unit) s =
        .next ((s.setPort p { heard with chkState := .locked, chkRun := 0, chkGen := guess.2 }).handReport
          (.patternState p .search .locked))) ∧
    (q.chkState = .search → ¬ passed → exec (.cellArrival p unit) s = .next (s.setPort p { heard with chkRun := 0 })) ∧
    (q.chkState = .locked →
      ∃ t, exec (.cellArrival p unit) s = .next t ∧
        t.counter (.port p .patternErr) = min (s.counter (.port p .patternErr) + missed) 65535 ∧
        (∀ c, c ≠ .port p .patternErr → t.counter c = s.counter c) ∧ t.store = s.store ∧ t.maps = s.maps ∧
        t.feeds = s.feeds ∧ t.mgmt = s.mgmt ∧
        (missed ≤ 64 → t.ports = upd s.ports p { heard with chkGen := own.2, chkRun := 0 }) ∧
        (64 < missed → q.chkRun ≠ 1 → t.ports = upd s.ports p { heard with chkGen := own.2, chkRun := q.chkRun + 1 }) ∧
        (64 < missed → q.chkRun = 1 →
          t.ports = upd s.ports p { heard with chkGen := own.2, chkState := .search, chkRun := 0 } ∧
          ((s.count (.port p .patternErr) missed).handReport (.patternState p .locked .search)).mlt = t.mlt))

/-- Section 7.1: a failure of a port is applied to each live entry of each RUNNING feed, in feed order and in index order; the
lanes of records that it completes move on after it (log entry 8). Section 7.2: at a failure of the port of its source an ON-AIR
entry takes a usable FallSrc, reads it afterwards where the feed was subscribed to the lost source, keeps the lost source as
ProtSrc and hands ENTRY-FALLBACK; with no usable FallSrc it stays as it is and the report says why. Where a port is congested, the
ENTRY-FALLBACK comes after a PORT-CONGESTION that the withdraw from the lost source causes (log entry 29). -/
def Obligations.FallbackAtPortFailure : Prop :=
  (∀ (s : State) (p : PortId),
    let reached : List (FeedId × Nat) := (List.finRange 8).flatMap (fun f =>
      if (s.feed f).state = .running then ((List.range 64).filter (fun e => (s.entry f e).used)).map (fun e => (f, e)) else [])
    s.portFailed p = (reached.foldl (fun t x => State.failEntry p x.1 t x.2) s).walkLanes) ∧
  ∀ (s : State) (p : PortId) (f : FeedId) (e : Nat) (lost : Source), (s.live f e).estate = .onAir →
    (s.live f e).curSrc = some lost → lost.port = p →
    let t := State.failEntry p f s e
    let tag := (s.entry f e).outTag
    let blocked (why : BlockReason) : Prop :=
      t = s.handReport (.entryFallback f e tag lost (s.port p).state (.blocked why))
    ((s.entry f e).fallSrc = none → blocked .noFallSrc) ∧
    ∀ src, (s.entry f e).fallSrc = some src →
      (src.port = p → blocked .samePort) ∧
      (src.port ≠ p → s.sourceTaken f e src = true → blocked .duplicate) ∧
      let room := s.store.hasRoom src = true ∨ (s.setLive f e { s.live f e with curSrc := none }).closesRecord f lost = true
      (src.port ≠ p → s.sourceTaken f e src = false → ¬ room → blocked .noRoom) ∧
      (src.port ≠ p → s.sourceTaken f e src = false → room →
        t.live f e =
          { s.live f e with
            protSrc := some lost, curSrc := some src, estate := .fallback, discPending := true, revertLeft := none } ∧
        (∀ k, k ≠ e → t.live f k = s.live f k) ∧ (∀ g, g ≠ f → t.map g = s.map g) ∧
        (s.wf = true → s.store.streamsSound → s.store.subscribed f lost = true →
          ∃ k, t.store.openAt src = some k ∧ hasFeed (t.store.stream k).subs f = true ∧
            hasFeed (t.store.stream k).waiting f = false) ∧
        (∃ u : State, t = u.handReport (.entryFallback f e tag lost (s.port p).state (.taken src)) ∧
          ((∀ o, s.store.cong.get o = false) → u.mlt = s.mlt)) ∧
        t.ports = s.ports ∧ t.feeds = s.feeds ∧ t.ssu = s.ssu)

/-! ### The control path -/

/-- Sections 8.4 and 4.5: when the response queue has a free place, REX places its held response, becomes IDLE and takes the front
request of the intake queue at the same instant, and the SMU places the oldest commit response that it holds; while the queue is
full neither does anything. -/
def Obligations.HeldResponsesPlacedWhenRoom : Prop :=
  (∀ (s : State) (r : Response), s.mgmt.heldResponse = some r → s.mlt.responses.length < 16 → s.mgmt.intake = [] →
    exec .heldResponsePlaced s =
      .next
        { s with
          mgmt := { s.mgmt with heldResponse := none }, mlt := { s.mlt with responses := s.mlt.responses ++ [r] } }) ∧
  (∀ (s : State) (r : Response) (q : Taken) (rest : List Taken), s.mgmt.heldResponse = some r →
    s.mlt.responses.length = 15 → s.mgmt.intake = q :: rest → (∀ fs, q.request ≠ .commitMap fs) →
    ∃ t a, exec .heldResponsePlaced s = .next t ∧ t.mgmt.intake = rest ∧ t.mgmt.heldResponse = some a ∧ a.tag = q.tag ∧
      a.kind = q.kind ∧ t.mlt.responses = s.mlt.responses ++ [r]) ∧
  (∀ s : State, s.mgmt.heldResponse = none ∨ 16 ≤ s.mlt.responses.length → exec .heldResponsePlaced s = .next s) ∧
  (∀ (s : State) (r : Response) (rest : List Response), s.heldCommits = r :: rest → s.mlt.responses.length < 16 →
    exec .commitResponsePlaced s =
      .next { s with heldCommits := rest, mlt := { s.mlt with responses := s.mlt.responses ++ [r] } }) ∧
  ∀ s : State, s.heldCommits = [] ∨ 16 ≤ s.mlt.responses.length → exec .commitResponsePlaced s = .next s

/-- Sections 8.2 to 8.4 and 8.6: a request sent to a unit that is AWAKE with CP0 in LIVE or ABSENT joins the intake queue at the
back while REX is HOLDING and the queue holds fewer than 8; beyond that it is an overrun, answered if the response queue has a
place and dropped if not, and changes nothing else. A request that the unit does not hear, as right after power-up, changes
nothing. That a request row is sent to the CRX and discarded unheard is log entry 5. -/
def Obligations.RequestsQueueOrOverrun : Prop :=
  ∀ (c : Instr) (q : Taken) (s : State), takenBy c = some q →
    let hears := s.mgmt.wake = .awake ∧ ((s.port 0).state = .live ∨ (s.port 0).state = .absent)
    (hears → s.mgmt.heldResponse.isSome → s.mgmt.intake.length < 8 →
      exec c s = .next { s with mgmt := { s.mgmt with intake := s.mgmt.intake ++ [q] } }) ∧
    (hears → 8 ≤ s.mgmt.intake.length → s.mlt.responses.length < 16 →
      exec c s =
        .next
          { s with
            mlt :=
              { s.mlt with
                responses := s.mlt.responses ++ [{ tag := q.tag, kind := q.kind, result := .overrun, contents := [] }] } }) ∧
    (hears → 8 ≤ s.mgmt.intake.length → 16 ≤ s.mlt.responses.length → exec c s = .next s) ∧
    (¬ hears → exec c s = .next s)

/-- Sections 8.5 and 11.3: a record of unknown kind, of another length than its kind's or with a spare field that is not 0 changes
nothing and is answered MALFORMED under its RequestTag; in SET-PORT the fields of the settings that its mask does not list are
spare. A record that is well formed is no MALFORMED_REQUEST. That the row MALFORMED_REQUEST leaves a well formed record alone is
log entry 5. -/
def Obligations.MalformedRequestsAnswered : Prop :=
  (∀ (record : List Byte) (s : State), record.length = 156 → s.ready →
    kindLength (record.getD 2 0).toNat ≠ some (record.getD 3 0).toNat →
    exec (.malformedRequest record) s =
      .next (s.placeResponse
        (answerOf (BitVec.ofNat 16 ((record.getD 0 0).toNat * 256 + (record.getD 1 0).toNat)) (record.getD 2 0) .malformed []))) ∧
  (∀ (c : Instr) (q : Taken) (s : State), takenBy c = some q → q.request.wellFormed = false → s.ready →
    exec c s = .next (s.placeResponse (answerOf q.tag q.kind .malformed []))) ∧
  (∀ params : PortParams,
    let spare (n : Nat) (field : Nat) : Prop := params.mask.getLsbD n = false ∧ field ≠ 0
    512 ≤ params.mask.toNat ∨ spare 0 params.enable.toNat ∨ spare 1 params.quota.toNat ∨ spare 2 params.maxAge.toNat ∨
      spare 3 params.nomDelay.toNat ∨ spare 4 params.jitLimit.toNat ∨ spare 5 params.winLen.toNat ∨
      spare 6 params.winMin.toNat ∨ spare 7 params.lossTimeout.toNat ∨ spare 8 params.checkTag.toNat →
    (Request.setPort params).wellFormed = false) ∧
  (∀ params : ReportingParams, 2048 ≤ params.enables.toNat → (Request.setReporting params).wellFormed = false) ∧
  ∀ (record : List Byte) (s : State), (takenOf record).request.wellFormed = true → exec (.malformedRequest record) s = .next s

/-! ### Splices and reverts -/

/-- Sections 6.6 and 5.2: a departure that comes to a live entry in OUT-WAIT with a fresh boundary cell at its head is taken whole
by the command (R94). The head evaluation makes the out-point: where the new source's port is LIVE the entry leaves the old source,
takes the new one and waits in IN-WAIT, reading it, and is evaluated again in that state. An entry in another state finds no out-
point. What is due is the model's own item (log entry 3). -/
def Obligations.OutPointLeavesOldSource : Prop :=
  (∀ (s : State) (f : FeedId) (e slot : Nat), s.slotReached = false → hasFeed s.due.slotFeeds f = true →
    (s.feed f).state = .running → (s.feed f).pendMode ≠ .test → e ∈ s.liveEntries f →
    let u := s.upToEntry f e
    (u.live f e).estate = .outWait → u.headOf f e = some slot → u.isStale slot s.stamp = false →
    u.store.isBoundary slot = true →
    ∃ t, exec (.outPoint f e) s = .next t ∧ exec (.slotBoundary [.feed f] .listed) s = .next t ∧
      hasFeed t.due.slotFeeds f = false ∧ (t.feed f).sent.isSome ∧ (∀ g, g ≠ f → t.feed g = s.feed g) ∧
      t.ports = s.ports ∧ t.mlt.responses = s.mlt.responses) ∧
  (∀ (s : State) (f : FeedId) (e slot : Nat) (tick : BitVec 32) (old new : Source), s.wf = true →
    (s.live f e).estate = .outWait → (s.live f e).curSrc = some old → (s.live f e).newSrc = some new → old ≠ new →
    s.headOf f e = some slot → s.isStale slot tick = false → s.store.isBoundary slot = true →
    (s.port new.port).state = .live → s.store.subscribed f new = true →
    let t := s.outPoint f e
    State.evaluateHead tick f s e = t.evaluateInWait f e tick ∧
    t.live f e = { s.live f e with curSrc := some new, estate := .inWait } ∧
    (∀ j, j ≠ e → t.live f j = s.live f j) ∧ (∀ g, g ≠ f → t.map g = s.map g) ∧
    (∃ k, t.store.openAt new = some k ∧ hasFeed (t.store.stream k).subs f = true ∧
      hasFeed (t.store.stream k).waiting f = false) ∧
    t.feeds = s.feeds ∧ t.ports = s.ports ∧ t.ssu = s.ssu ∧ t.mlt.responses = s.mlt.responses) ∧
  ∀ (s : State) (f : FeedId) (e : Nat), s.wf = true → (s.live f e).estate ≠ .outWait → exec (.outPoint f e) s = .next s

/-- Sections 6.6, 6.7, 5.2 and 7.3: a departure that comes to a live entry in IN-WAIT with a fresh boundary cell at its head is
taken whole by the command (R94). The head evaluation makes the in-point: the entry goes ON-AIR with DiscPending set and no splice
in progress. A revert reports DONE; a lane's record is given DONE for the feed, and completes at once when that was its last item,
its SPLICE-OUTCOME handed and the lane stopping on it where Continue is clear. An entry in no splice finds no in-point. What is
due, and the lanes that wait to move on when the departure is whole, are the model's own items (log entries 3 and 8). -/
def Obligations.InPointLandsSplice : Prop :=
  (∀ (s : State) (f : FeedId) (e slot : Nat), s.slotReached = false → hasFeed s.due.slotFeeds f = true →
    (s.feed f).state = .running → (s.feed f).pendMode ≠ .test → e ∈ s.liveEntries f →
    let u := s.upToEntry f e
    (u.live f e).estate = .inWait → u.headOf f e = some slot → u.isStale slot s.stamp = false →
    u.store.isBoundary slot = true →
    ∃ t, exec (.inPoint f e) s = .next t ∧ exec (.slotBoundary [.feed f] .listed) s = .next t ∧
      hasFeed t.due.slotFeeds f = false ∧ (t.feed f).sent.isSome ∧ (∀ g, g ≠ f → t.feed g = s.feed g) ∧
      t.ports = s.ports ∧ t.mlt.responses = s.mlt.responses) ∧
  (∀ (s : State) (f : FeedId) (e slot : Nat) (tick : BitVec 32), s.wf = true → (s.live f e).estate = .inWait →
    s.headOf f e = some slot → s.isStale slot tick = false → s.store.isBoundary slot = true →
    let v := s.live f e
    let onAir : Live :=
      { v with
        estate := .onAir, newSrc := none, prevSrc := none, protSrc := none, discPending := true, windowLeft := 0,
        onMiss := none, owner := none, revertLeft := none }
    (v.owner = some .revert →
      State.evaluateHead tick f s e =
        (s.handReport (.entryReverted f e (s.entry f e).outTag v.protSrc .done)).setLive f e onAir) ∧
    ∀ l r, v.owner = some (.lane l r) → (s.record r).status = .armed →
      let done := (s.record r).outcomes.map (fun o => if o = (f, SpliceResult.started) then (f, SpliceResult.done) else o)
      ((∃ g, g ≠ f ∧ (g, SpliceResult.started) ∈ (s.record r).outcomes) →
        State.evaluateHead tick f s e = (s.setRecord r { s.record r with outcomes := done }).setLive f e onAir) ∧
      ((∀ g, g ≠ f → (g, SpliceResult.started) ∉ (s.record r).outcomes) → (s.lane l).state = .armed → (s.lane l).curRec = r →
        (∀ l', l' ≠ l → (s.lane l').curRec ≠ r) →
        let complete :=
          (s.setRecord r { s.record r with status := .complete, outcomes := done }).handReport (.spliceOutcome l r .complete done)
        ((s.record r).goesOn = false →
          State.evaluateHead tick f s e = (complete.setLane l { s.lane l with state := .stopped }).setLive f e onAir) ∧
        ((s.record r).goesOn = true →
          State.evaluateHead tick f s e =
            ({ complete with due := { s.due with walks := s.due.walks ++ [l] } } : State).setLive f e onAir))) ∧
  ∀ (s : State) (f : FeedId) (e : Nat), s.wf = true → (s.live f e).estate ≠ .inWait → (s.live f e).estate ≠ .outWait →
    exec (.inPoint f e) s = .next s

/-- Section 6.4: notice of a record due within its NoticeLead cycles makes record and lane NOTICED and hands SPLICE-NOTICE; for a
SWITCH each target feed is marked in feed order: STOPPED when it runs no streams, else HELD with a subscription to NewSrc, or NO-
ROOM when the stream table has none for it. What is due is the model's own item (log entry 3). -/
def Obligations.NoticeMarksTargetFeeds : Prop :=
  ∀ (s : State) (l : LaneId) (r : Nat), s.wf = true → s.due.lanes.getLsbD l.val = true → (s.lane l).state = .waiting → (s.lane l).curRec = r →
    (s.record r).carries = .action → (s.record r).status ≠ .noticed → (s.record r).status ≠ .armed →
    let x := s.record r
    let d := (x.dueCycle - s.tbu.cycleNo).toNat
    1 ≤ d → d ≤ x.noticeLead → d < 32768 →
    ∃ t, exec (.notice l) s = .next t ∧
      t.record r = { x with status := .noticed, outcomes := [], marks := (t.record r).marks } ∧
      t.lane l = { s.lane l with state := .noticed, linkRun := 0 } ∧
      (∀ j, j ≠ r → t.record j = s.record j) ∧ (∀ l', l' ≠ l → t.lane l' = s.lane l') ∧
      t.mlt = (s.handReport (.spliceNotice l r x.dueCycle)).mlt ∧ t.maps = s.maps ∧ t.feeds = s.feeds ∧
      (x.action ≠ .switch → (t.record r).marks = [] ∧ t.store = s.store) ∧
      (x.action = .switch → (t.record r).marks.map Prod.fst = feedList x.feeds ∧
        ∀ f, hasFeed x.feeds f = true →
          (s.feedNeeds f = false → (t.record r).markOf f = some .stopped) ∧
          (s.feedNeeds f = true → s.store.hasRoom x.newSrc = true →
            (t.record r).markOf f = some .held ∧ t.store.subscribed f x.newSrc = true) ∧
          (s.feedNeeds f = true → s.store.hasRoom x.newSrc = false → (t.record r).markOf f = some .noRoom))

/-- Section 6.5, for a record with one target feed: at distance 0 the first check that applies gives the feed's outcome. STARTED
puts the entry in OUT-WAIT toward the new source with the record's window, and lane and record rest ARMED; SHARE changes the
entry's share; any other outcome leaves the entry, and a record with no splice begun is COMPLETE at once. What is due is the
model's own item (log entry 3). -/
def Obligations.ArmingDecidesOutcome : Prop :=
  ∀ (s : State) (l : LaneId) (r : Nat) (f : FeedId), s.wf = true → s.due.lanes.getLsbD l.val = true → (s.lane l).curRec = r →
    let x := s.record r
    (s.lane l).state = .noticed ∨
      ((s.lane l).state = .waiting ∧ x.carries = .action ∧ x.status ≠ .noticed ∧ x.status ≠ .armed ∧ x.marks = []) →
    x.dueCycle = s.tbu.cycleNo → x.feeds = oneFeed f → x.outcomes = [] → x.goesOn = false →
    let u := 16 * s.tbu.pendCycleLen.getD s.tbu.cycleLen
    let outcome (e : Nat) : SpliceResult :=
      let src := if x.action = .returnHome then (s.entry f e).homeSrc else x.newSrc
      if (s.live f e).estate = .outWait ∨ (s.live f e).estate = .inWait then .busy
      else if x.action = .share then
        if x.newShare = (s.entry f e).share then .unchanged else if u < s.sharesWith f e x.newShare then .oversub else .done
      else if x.markOf f = some .noRoom ∨ (s.store.subscribed f src = false ∧ s.store.hasRoom src = false) then .noRoom
      else if (s.port src.port).state ≠ .live then .absent
      else if s.sourceTaken f e src = true then .duplicate
      else if (s.live f e).curSrc = some src then .unchanged
      else .started
    let o := if (s.feed f).state ≠ .running then .abandoned
      else match s.entryOfTag f x.outTag with
        | none => .noEntry
        | some e => outcome e
    ∃ t, exec (.arming l) s = .next t ∧ (t.record r).outcomes = [(f, o)] ∧ (t.lane l).curRec = r ∧ t.feeds = s.feeds ∧
      t.ports = s.ports ∧ (∀ j, j ≠ r → t.record j = s.record j) ∧
      (o = .started → (t.record r).status = .armed ∧ t.lane l = { s.lane l with state := .armed, linkRun := 0 } ∧
        ∀ e, s.entryOfTag f x.outTag = some e →
          t.live f e =
            { s.live f e with
              prevSrc := (s.live f e).curSrc
              newSrc := some (if x.action = .returnHome then (s.entry f e).homeSrc else x.newSrc)
              windowLeft := x.window, onMiss := some x.onMiss, owner := some (.lane l r), estate := .outWait,
              revertLeft := none }) ∧
      (o ≠ .started → (t.record r).status = .complete ∧ t.lane l = { s.lane l with state := .stopped } ∧
        (∀ e, t.live f e = s.live f e) ∧
        (x.markOf f ≠ some .held → t.mlt = (s.handReport (.spliceOutcome l r .complete [(f, o)])).mlt)) ∧
      ∀ e, s.entryOfTag f x.outTag = some e → (t.entry f e).share = if o = .done then x.newShare else (s.entry f e).share

/-- Sections 6.6 and 7.3: an entry whose window has reached 0 is put on its new source with DiscPending set (FORCE), or returned to
the source it had before the arming (CANCEL); the owner is told: a lane's record takes the outcome, and a revert hands ENTRY-
REVERTED with FORCED, before any PORT-CONGESTION that leaving the old source causes (log entry 29). A window that has not reached
0, or an entry in no splice, is left. -/
def Obligations.WindowExpiryEndsSplice : Prop :=
  (∀ (s : State) (f : FeedId) (e : Nat), s.wf = true → s.settled → (s.live f e).windowLeft = 0 →
    (s.live f e).owner = some .revert ∨
      (∃ l r g, (s.live f e).owner = some (.lane l r) ∧ (s.record r).status = .armed ∧ g ≠ f ∧
        (g, SpliceResult.started) ∈ (s.record r).outcomes) →
    let v := s.live f e
    let ended : Live :=
      { v with newSrc := none, prevSrc := none, windowLeft := 0, onMiss := none, owner := none }
    let onAir : Live := { ended with estate := .onAir, protSrc := none, discPending := true, revertLeft := none }
    let reverted := (s.handReport (.entryReverted f e (s.entry f e).outTag v.protSrc .forced)).mlt
    let told (t : State) (o : SpliceResult) : Prop :=
      (∀ l r, v.owner = some (.lane l r) →
        t.record r =
          { s.record r with
            outcomes := (s.record r).outcomes.map (fun i => if i = (f, SpliceResult.started) then (f, o) else i) }) ∧
      (v.owner = some .revert →
        reverted.reports <+: t.mlt.reports ∧
        (v.estate = .inWait ∨ (∀ p, s.store.cong.get p = false) → t.mlt = reverted))
    (v.onMiss = some .force → v.estate = .inWait →
      ∃ t, exec (.windowExpiry f e) s = .next t ∧ t.live f e = onAir ∧ told t .forced ∧ t.store = s.store ∧ t.feeds = s.feeds) ∧
    (∀ new, v.onMiss = some .force → v.estate = .outWait → v.newSrc = some new →
      ∃ t, exec (.windowExpiry f e) s = .next t ∧ t.live f e = { onAir with curSrc := some new } ∧ told t .forced ∧
        t.feeds = s.feeds) ∧
    (∀ l r, v.onMiss = some .cancel → v.estate = .outWait → v.owner = some (.lane l r) → v.protSrc = none →
      ∃ t, exec (.windowExpiry f e) s = .next t ∧ t.live f e = { ended with estate := .onAir } ∧ told t .cancelled ∧
        t.feeds = s.feeds) ∧
    (∀ l r prev, v.onMiss = some .cancel → v.estate = .inWait → v.owner = some (.lane l r) → v.prevSrc = some prev →
      v.protSrc = none → s.store.hasRoom prev = true →
      ∃ t, exec (.windowExpiry f e) s = .next t ∧
        t.live f e = { ended with estate := .onAir, curSrc := some prev, discPending := true } ∧ told t .cancelled ∧
        t.feeds = s.feeds) ∧
    (∀ l r prot, v.onMiss = some .cancel → v.estate = .outWait → v.owner = some (.lane l r) → v.protSrc = some prot →
      ∃ t, exec (.windowExpiry f e) s = .next t ∧ told t .cancelled ∧
        t.live f e =
          { ended with
            estate := .fallback,
            revertLeft :=
              if (s.entry f e).autoRevert = true ∧ (s.port prot.port).state = .live then some (s.entry f e).revertDelay
              else none })) ∧
  ∀ (s : State) (f : FeedId) (e : Nat),
    (s.live f e).windowLeft ≠ 0 ∨ ((s.live f e).estate ≠ .outWait ∧ (s.live f e).estate ≠ .inWait) →
    exec (.windowExpiry f e) s = .next s

/-- Section 7.3: a countdown that reaches 0 at a cycle boundary starts the revert as a splice toward ProtSrc with a window of 16
boundaries and OnMiss FORCE, when no other entry claims that source and the stream table has room; an entry not in FALLBACK starts
none. What is due is the model's own item (log entry 3). -/
def Obligations.RevertStartsAtZero : Prop :=
  (∀ (s : State) (f : FeedId) (e n : Nat) (prot : Source), s.wf = true → (s.due.reverts.get f).getLsbD e = true →
    (s.live f e).estate = .fallback → (s.live f e).revertLeft = some n → n ≤ 1 → (s.live f e).protSrc = some prot →
    s.sourceTaken f e prot = false → s.store.subscribed f prot = true ∨ s.store.hasRoom prot = true →
    ∃ t, exec (.revertStart f e) s = .next t ∧
      t.live f e =
        { s.live f e with
          prevSrc := (s.live f e).curSrc, newSrc := some prot, windowLeft := 16, onMiss := some .force, owner := some .revert,
          revertLeft := none, estate := .outWait } ∧
      (∀ j, j ≠ e → t.live f j = s.live f j) ∧ (∀ g, g ≠ f → t.map g = s.map g) ∧ t.store.subscribed f prot = true ∧
      t.store.cells = s.store.cells ∧ t.mlt = s.mlt ∧ t.ssu = s.ssu ∧ t.feeds = s.feeds ∧ t.ports = s.ports) ∧
  ∀ (s : State) (f : FeedId) (e : Nat), (s.live f e).estate ≠ .fallback → exec (.revertStart f e) s = .next s

/-! ### Commits -/

/-- Sections 4.4 and 4.5, for a commit of one feed: free of splices at a cycle boundary and its checks passed, the shadow becomes
active, its entries carry on by output tag, or rest on a feed that needs no stream, and the new shadow is an unlocked copy; OK with
CycleNo is handed on. Considered at 64 boundaries in vain, the commit ends with TIMEOUT and changes no bank and no live field. What
is due is the model's own item (log entry 3). -/
def Obligations.CommitSwapsOrTimesOut : Prop :=
  ∀ (s : State) (f : FeedId) (c : Commit), s.wf = true → s.commitOf f = some c → c.due = true → c.feeds = oneFeed f →
    s.heldCommits = [] → s.mlt.responses.length < 16 →
    let m := s.map f
    let u : Int := 16 * s.tbu.cycleLen
    (s.feedBusy f = false → s.swapCheck c.feeds = none →
      ∃ t, exec (.commitSwap f) s = .next t ∧ t.feeds = s.feeds ∧ t.ssu = s.ssu ∧ t.ports = s.ports ∧
        t.commits.map Commit.feeds = (s.commits.map Commit.feeds).filter (fun fs => fs &&& c.feeds = 0) ∧
        t.mlt.responses =
          s.mlt.responses ++ [answerOf c.tag 0x32 .ok (bytesOf 2 s.tbu.cycleNo.toNat)] ∧
        (t.map f).activeBank = m.activeBank.other ∧ (t.map f).locked = false ∧
        (t.map f).active = m.shadow ∧ (t.map f).shadow = m.shadow ∧ (∀ g, g ≠ f → t.map g = s.map g) ∧
        ∀ e, e < 64 →
          let x := bankEntry m.shadow e
          (x.used = false → t.live f e = Live.vacant) ∧
          (x.used = true → s.feedNeeds f = false ∨ s.entryOfTag f x.outTag = none →
            t.live f e = { Live.vacant with estate := .onAir, curSrc := some x.homeSrc }) ∧
          (∀ o, x.used = true → s.feedNeeds f = true → s.entryOfTag f x.outTag = some o →
            let v := s.live f o
            (t.live f e).credit = max (-u) (min v.credit (2 * u)) ∧ (t.live f e).outCont = v.outCont ∧
            (t.live f e).newSrc = none ∧ (t.live f e).prevSrc = none ∧ (t.live f e).windowLeft = 0 ∧
            (t.live f e).onMiss = none ∧ (t.live f e).owner = none ∧
            ((s.entry f o).homeSrc = x.homeSrc →
              (t.live f e).estate = v.estate ∧ (t.live f e).curSrc = v.curSrc ∧ (t.live f e).protSrc = v.protSrc ∧
              (t.live f e).discPending = v.discPending) ∧
            ((s.entry f o).homeSrc ≠ x.homeSrc →
              (t.live f e).estate = .onAir ∧ (t.live f e).curSrc = some x.homeSrc ∧ (t.live f e).protSrc = none ∧
              (t.live f e).revertLeft = none ∧ (t.live f e).discPending = true))) ∧
    (s.feedBusy f = true → 64 ≤ c.considered →
      ∃ t, exec (.commitTimeout f) s = .next t ∧ t = { s with maps := t.maps, commits := t.commits, mlt := t.mlt } ∧
        t.commits.map Commit.feeds = (s.commits.map Commit.feeds).filter (fun fs => fs &&& c.feeds = 0) ∧
        t.map f = { m with locked := false } ∧ (∀ g, g ≠ f → t.map g = s.map g) ∧
        t.mlt = { s.mlt with
          responses := s.mlt.responses ++ [answerOf c.tag 0x32 .timeout (bytesOf 2 s.tbu.cycleNo.toNat ++ [BitVec.ofNat 8 f.val])] }) ∧
    (s.feedBusy f = true → exec (.commitSwap f) s = .next s) ∧
    (s.feedBusy f = true → c.considered < 64 → exec (.commitTimeout f) s = .next s)

/-! ### Changes of feed state at a boundary -/

/-- Section 5.1: a feed in STARTING becomes RUNNING at the cycle boundary that is handed to it, its live entries untouched, unless
it is to enter TEST at the slot boundary that is also that cycle boundary. A feed in TEST that is to run leaves TEST there when its
streams fit, reading every live entry's source; when they do not fit it stays. What is due is the model's own item (log entry 3).
-/
def Obligations.FeedsRunFromCycleBoundary : Prop :=
  (∀ (s : State) (f : FeedId), hasFeed s.due.cycleFeeds f = true → (s.feed f).state = .starting →
    (s.feed f).pendMode ≠ .test ∨ hasFeed s.due.slotFeeds f = false →
    exec (.feedBecomesRunning f) s =
      .next
        ({ s with due := { s.due with cycleFeeds := dropFeed s.due.cycleFeeds f } }.setFeed f
          { s.feed f with state := .running })) ∧
  (∀ (s : State) (f : FeedId),
    (s.feed f).state ≠ .starting ∨ ((s.feed f).pendMode = .test ∧ hasFeed s.due.slotFeeds f = true) →
    exec (.feedBecomesRunning f) s = .next s) ∧
  (∀ (s : State) (f : FeedId), hasFeed s.due.cycleFeeds f = true → (s.feed f).state = .test →
    (s.feed f).pendMode = .running → s.streamsFit f = true → s.wf = true → s.store.streamsSound →
    ∃ t, exec (.feedLeavesTest f) s = .next t ∧
      t.feed f = { s.feed f with state := .running, pendMode := .none, injectPending := false } ∧
      (∀ g, g ≠ f → t.feed g = s.feed g) ∧ t.maps = s.maps ∧ t.store.cells = s.store.cells ∧ t.ssu = s.ssu ∧ t.mlt = s.mlt ∧
      ∀ e src, e ∈ s.liveEntries f → (s.live f e).curSrc = some src →
        ∃ k, t.store.openAt src = some k ∧ hasFeed (t.store.stream k).subs f = true ∧
          hasFeed (t.store.stream k).waiting f = false) ∧
  ∀ (s : State) (f : FeedId), (s.feed f).state ≠ .test ∨ s.streamsFit f = false → exec (.feedLeavesTest f) s = .next s

/-- Sections 5.1 and 10.1: a feed with PendMode TEST enters TEST at its slot boundary: no stream is left to it, every live entry
takes its rest values, the generator and PatCont start again, and the first pattern cell is sent at that boundary. For a feed that
no splice record in use targets. What is due, and the cell kept as sent, are the model's own items (log entries 3 and 7). -/
def Obligations.FeedEntersTestAtRest : Prop :=
  (∀ (s : State) (f : FeedId), s.settled → hasFeed s.due.slotFeeds f = true → (s.feed f).pendMode = .test →
    (∀ r, (s.record r).inUse = true → hasFeed (s.record r).feeds f = false) →
    s.wf = true → s.store.streamsSound →
    ∃ t cell, exec (.feedEntersTest f) s = .next t ∧
      t.feed f =
        { s.feed f with
          state := .test, pendMode := .none, gen := (genRun 1248 0x1FFFF).2, patCont := 1, injectPending := false,
          sent := some cell } ∧
      cell.hdr.kind = .programme ∧ cell.hdr.tag = (s.feed f).testTag ∧ cell.hdr.cont = 0 ∧
      ((s.feed f).injectPending = false → cell.payload = bytesOfBits 156 (genRun 1248 0x1FFFF).1) ∧
      hasFeed t.due.slotFeeds f = false ∧ hasFeed t.due.cycleFeeds f = false ∧
      (∀ g, g ≠ f → t.feed g = s.feed g ∧ t.map g = s.map g) ∧
      (s.feedNeeds f = true → ∀ src, t.store.subscribed f src = false) ∧
      (∀ e, e ∈ s.liveEntries f →
        t.live f e = { Live.vacant with estate := .onAir, curSrc := some (s.entry f e).homeSrc }) ∧
      t.ports = s.ports ∧ t.commits = s.commits) ∧
  ∀ (s : State) (f : FeedId), (s.feed f).pendMode ≠ .test → exec (.feedEntersTest f) s = .next s

/-! ### Requests of the timebase -/

/-- R10: SET-SLOT-PERIOD is done in every state of the part: the period, I raised to 64 where it is below, is placed in
PendSlotPeriod over any period already there, and nothing else changes; the response is OK, or CLAMPED. The period comes into force
at the next slot boundary or at an epoch before it. -/
def Obligations.SetSlotPeriodPending : Prop :=
  let asked (s : State) (i f : BitVec 16) : State :=
    { s with tbu := { s.tbu with pendSlotPeriod := some (max 64 i.toNat, f.toNat) } }
  let result (i : BitVec 16) : Result := if i.toNat < 64 then .clamped else .ok
  (∀ (tag i f : BitVec 16) (s : State), s.ready →
    exec (.setSlotPeriod tag i f) s = .next ((asked s i f).placeResponse (answerOf tag 0x10 (result i) []))) ∧
  (∀ (tag i f : BitVec 16) (s : State),
    s.judgeRequest { tag := tag, kind := 0x10, request := .setSlotPeriod i f } = (asked s i f, some (result i, []))) ∧
  (∀ (s : State) (p : Nat × Nat) (order : List SlotPart) (pace : Pace), s.slotReached = true → s.tbu.pendSlotPeriod = some p →
    ∃ t, exec (.slotBoundary order pace) s = .next t ∧ t.tbu.slotInt = p.1 ∧ t.tbu.slotFrac = p.2 ∧
      t.tbu.pendSlotPeriod = none ∧ t.tbu.slotPos = s.tbu.slotPos + BitVec.ofNat 64 (p.1 * 65536 + p.2)) ∧
  ∀ (s : State) (p : Nat × Nat) (v : BitVec 16) (order : List CyclePart) (pace : Pace), s.tbu.tickCount = s.tbu.nextSecond →
    s.tbu.pendEpoch = some v → s.tbu.pendSlotPeriod = some p →
    ∃ t, exec (.epoch order pace) s = .next t ∧ t.tbu.slotInt = p.1 ∧ t.tbu.slotFrac = p.2 ∧ t.tbu.pendSlotPeriod = none

/-- Section 1.4: SET-CYCLE-LENGTH brings the length into 256 to 16384 and places it in PendCycleLen when every feed is DISABLED, no
commit is pending and every active bank's shares fit; the first check that fails decides the refusal, which changes nothing. -/
def Obligations.SetCycleLengthChecked : Prop :=
  ∀ (tag length : BitVec 16) (s : State), s.ready →
    let len := max 256 (min 16384 length.toNat)
    let allDisabled := ∀ f, (s.feed f).state = .disabled
    (¬ allDisabled ∨ s.commits ≠ [] →
      exec (.setCycleLength tag length) s = .next (s.placeResponse (answerOf tag 0x11 .state []))) ∧
    (∀ f, allDisabled → s.commits = [] → 16 * len < shareSum (s.map f).active →
      (∀ g, g < f → shareSum (s.map g).active ≤ 16 * len) →
      exec (.setCycleLength tag length) s =
        .next (s.placeResponse (answerOf tag 0x11 .oversubscribed [BitVec.ofNat 8 f.val]))) ∧
    (allDisabled → s.commits = [] → (∀ f, shareSum (s.map f).active ≤ 16 * len) →
      exec (.setCycleLength tag length) s =
        .next (({ s with tbu := { s.tbu with pendCycleLen := some len } } : State).placeResponse
          (answerOf tag 0x11 (if length.toNat < 256 ∨ 16384 < length.toNat then .clamped else .ok) [])))

/-- R14: SET-EPOCH places the value in PendEpoch over any value there, in every state, and is answered OK. The value is taken at
the next second boundary of either kind, with no response or report of its own, and shows in READ-TIMEBASE; a boundary taken before
the request leaves it to the following one; a soft reset keeps it. epochPassed is the model's own item (log entry 20). -/
def Obligations.SetEpochPending : Prop :=
  let asked (s : State) (v : BitVec 16) : State := { s with tbu := { s.tbu with pendEpoch := some v } }
  (∀ (tag v : BitVec 16) (s : State), s.ready →
    exec (.setEpoch tag v) s = .next ((asked s v).placeResponse (answerOf tag 0x12 .ok []))) ∧
  (∀ (tag v : BitVec 16) (s : State),
    s.judgeRequest { tag := tag, kind := 0x12, request := .setEpoch v } = (asked s v, some (.ok, []))) ∧
  (∀ (s : State) (v : BitVec 16), s.tbu.pendEpoch = some v → s.tbu.tickCount = s.tbu.nextSecond →
    (∀ pace : SecondPace, ∃ t, exec (.secondBoundary pace) s = .next t ∧ t.tbu.cycleNo = v ∧ t.tbu.pendEpoch = none) ∧
    ∃ t, exec (.epoch [] .listed) s = .next t ∧ t.tbu.cycleNo = v ∧ t.tbu.pendEpoch = none ∧
      t.mlt.responses = s.mlt.responses ∧ t.heldCommits = s.heldCommits ∧
      (s.mlt.secsLeft ≠ some 1 → s.mlt.secsLeft ≠ some 0 →
        t.mlt = { s.mlt with secsLeft := s.mlt.secsLeft.map (fun n => n - 1) })) ∧
  (∀ (s : State) (v : BitVec 16), s.tbu.pendEpoch = some v →
    s.tbu.refState = .free ∨ (s.tbu.refState = .locked ∧ s.tbu.expMark = some s.tbu.tickCount) ∨
      (s.tbu.refState = .holdover ∧ s.tbu.relockRun = 2 ∧ s.tbu.lastMark = some (s.tbu.tickCount - 16384000)) →
    (∀ l, s.tbu.lastSecond = some l → 64 < (s.tbu.tickCount - l).toNat) → s.due.epochPassed = false → ∀ pace : SecondPace,
    ∃ t, exec (.secondMark pace) s = .next t ∧ t.tbu.cycleNo = v ∧ t.tbu.pendEpoch = none) ∧
  (∀ (tag : BitVec 16) (s : State), ∃ l,
    (s.judgeRequest { tag := tag, kind := 0x13, request := .readTimebase }).2 = some (.ok, l) ∧
    l.drop (l.length - 7) =
      bytesOf 2 s.tbu.cycleNo.toNat ++ bytesOf 2 s.tbu.slotIndex ++
        (match s.tbu.pendEpoch with
          | none => [0, 0, 0]
          | some v => 1 :: bytesOf 2 v.toNat)) ∧
  (∀ (s : State) (v : BitVec 16) (pace : SecondPace), s.tbu.pendEpoch = none → s.tbu.tickCount = s.tbu.nextSecond →
    ∃ t, exec (.secondBoundary pace) s = .next t ∧ exec (.epoch [] .listed) (asked t v) = .next (asked t v) ∧
      ∀ pace' : SecondPace, exec (.secondBoundary pace') (asked t v) = .next (asked t v)) ∧
  ∀ s : State, s.softReset.tbu.pendEpoch = s.tbu.pendEpoch

/-! ### Requests that read -/

/-- R157: the seven requests that read change no state, in any state of the part; taken at once they are answered OK, or RANGE
where an index field is out of range, and they take their places in the intake and response queues like any other request. -/
def Obligations.ReadsChangeNothing : Prop :=
  let read (c : Instr) (inRange : Prop) : Prop :=
    ∃ q, takenBy c = some q ∧ ∀ s : State,
      let hears := s.mgmt.wake = .awake ∧ ((s.port 0).state = .live ∨ (s.port 0).state = .absent)
      (s.judgeRequest q).1 = s ∧
      (s.ready → ∃ res l, exec c s = .next (s.placeResponse (answerOf q.tag q.kind res l)) ∧
        (s.judgeRequest q).2 = some (res, l) ∧ (inRange → res = .ok) ∧ (¬ inRange → res = .range)) ∧
      (hears → s.mgmt.heldResponse.isSome → s.mgmt.intake.length < 8 →
        exec c s = .next { s with mgmt := { s.mgmt with intake := s.mgmt.intake ++ [q] } }) ∧
      (hears → 8 ≤ s.mgmt.intake.length → s.mlt.responses.length < 16 →
        exec c s = .next (s.placeResponse (answerOf q.tag q.kind .overrun [])))
  ∀ (tag : BitVec 16) (a b e : BitVec 8) (r : BitVec 16),
    read (.readTimebase tag) True ∧ read (.readPort tag a) (a.toNat ≤ 12) ∧
    read (.readMapEntry tag a b e) (a.toNat ≤ 7 ∧ b.toNat ≤ 1 ∧ e.toNat ≤ 63) ∧
    read (.readFeed tag a e) (a.toNat ≤ 7 ∧ e.toNat ≤ 63) ∧ read (.readSpliceRecord tag r) (r.toNat ≤ 1023) ∧
    read (.readLane tag a) (a.toNat ≤ 3) ∧ read (.readCounters tag b) (b.toNat ≤ 1)

/-! ### Requests of the ports -/

/-- Sections 2.2 and 3.4: SET-PORT without Enable on its list writes each listed setting, brought into its range, and restarts what
the setting restarts; settings not listed stay. A port, or a CheckTag on the list, out of range is refused with RANGE, and a Quota
below Occ with STATE. That Cong is judged for clearing whenever Quota is listed, also with the value held, is log entry 17. -/
def Obligations.SetPortWritesListedSettings : Prop :=
  ∀ (tag : BitVec 16) (c : PortParams) (s : State), s.ready → (Request.setPort c).wellFormed = true →
    let listed (n : Nat) : Bool := c.mask.getLsbD n
    let refused (res : Result) : Prop := exec (.setPort tag c) s = .next (s.placeResponse (answerOf tag 0x20 res []))
    (12 < c.port.toNat → refused .range) ∧
    ∀ p : PortId, c.port.toNat = p.val →
      let q := s.port p
      let tagGood := listed 8 = true → c.checkTag.toNat ≤ 4093 ∨ c.checkTag = 0xFFFF
      let fits := listed 1 = true → s.store.occ.get p ≤ min 16384 c.quota.toNat
      (listed 0 = false → ¬ tagGood → refused .range) ∧
      (listed 0 = false → tagGood → ¬ fits → refused .state) ∧
      (listed 0 = false → tagGood → fits →
        ∃ t : State, exec (.setPort tag c) s =
            .next (t.placeResponse (answerOf tag 0x20
              (if (listed 1 ∧ 16384 < c.quota.toNat) ∨ (listed 2 ∧ c.maxAge = 0) ∨ (listed 4 ∧ 1048575 < c.jitLimit.toNat) ∨
                  (listed 5 ∧ (c.winLen.toNat < 64 ∨ 4096 < c.winLen.toNat)) ∨
                  (listed 6 ∧ (c.winMin.toNat < 1 ∨ 15 < c.winMin.toNat)) ∨ (listed 7 ∧ c.lossTimeout = 0)
                then .clamped else .ok) [])) ∧
          t = { s with ports := t.ports, store := t.store, mlt := t.mlt } ∧
          t.ports = upd s.ports p
            { q with
              settings :=
                { enable := q.settings.enable
                  quota := if listed 1 then min 16384 c.quota.toNat else q.settings.quota
                  maxAge := if listed 2 then max 1 c.maxAge.toNat else q.settings.maxAge
                  nomDelay := if listed 3 then c.nomDelay.toNat else q.settings.nomDelay
                  jitLimit := if listed 4 then min 1048575 c.jitLimit.toNat else q.settings.jitLimit
                  winLen := if listed 5 then max 64 (min 4096 c.winLen.toNat) else q.settings.winLen
                  winMin := if listed 6 then max 1 (min 15 c.winMin.toNat) else q.settings.winMin
                  lossTimeout := if listed 7 then max 1 c.lossTimeout.toNat else q.settings.lossTimeout
                  checkTag :=
                    if listed 8 then (if c.checkTag = 0xFFFF then none else some (c.checkTag.setWidth 12))
                    else q.settings.checkTag }
              winCount := if listed 5 || listed 6 then 0 else q.winCount
              winProg := if listed 5 || listed 6 then 0 else q.winProg
              lossDeadline :=
                if listed 7 = true ∧ (q.state = .hunt ∨ q.state = .live ∨ q.state = .absent) then
                  some (s.tbu.tickCount + BitVec.ofNat 48 (max 1 c.lossTimeout.toNat * 1024))
                else q.lossDeadline
              chkState := if listed 8 then .search else q.chkState
              chkRun := if listed 8 then 0 else q.chkRun } ∧
          t.store =
            { s.store with
              cong :=
                if listed 1 = true ∧ s.store.cong.get p = true ∧ s.store.occ.get p ≤ min 16384 c.quota.toNat / 2 then
                  upd s.store.cong p false
                else s.store.cong } ∧
          (listed 1 = false →
            t.mlt = (if listed 8 = true ∧ q.chkState = .locked then s.handReport (.patternState p .locked .search) else s).mlt))

/-- Sections 2.1 and 3.5: Enable set on a port in DOWN begins a hunt, and set off on a port that is not DOWN makes it DOWN with its
runs 0, source protection and a purge following; in the state it already gives, Enable changes nothing more. CP0 is never set off.
A purge leaves each OPEN record of the port without a continuity history and with its subscribers. That the change of state is
reported before its source protection is log entry 15, and that the source protection goes before the purge is log entry 21. -/
def Obligations.SetPortEnablesAndDisables : Prop :=
  let request (p : PortId) (enable : BitVec 8) : PortParams :=
    { port := BitVec.ofNat 8 p.val, mask := 1, enable := enable, quota := 0, maxAge := 0, nomDelay := 0, jitLimit := 0, winLen := 0,
      winMin := 0, lossTimeout := 0, checkTag := 0 }
  (∀ (tag : BitVec 16) (p : PortId) (s : State), s.ready →
    let q := s.port p
    let on := { q.settings with enable := true }
    let off := { q.settings with enable := false }
    let down : Port :=
      { q with
        state := .down, settings := off, lossDeadline := none, goodRun := 0, badRun := 0, winCount := 0, winProg := 0,
        thinRun := 0, fullRun := 0, align := [] }
    let answered (enable : BitVec 8) (t : State) : Prop :=
      exec (.setPort tag (request p enable)) s = .next (t.placeResponse (answerOf tag 0x20 .ok []))
    (q.state = .down → answered 1
      ((s.setPort p
        { q with
          state := .hunt, settings := on, goodRun := 0, align := [],
          lossDeadline := some (s.tbu.tickCount + BitVec.ofNat 48 (q.settings.lossTimeout * 1024)) }).handReport
        (.portState p .down .hunt))) ∧
    (q.state ≠ .down → answered 1 (s.setPort p { q with settings := on })) ∧
    (p ≠ 0 → q.state = .down → answered 0 (s.setPort p { q with settings := off })) ∧
    (p ≠ 0 → q.state ≠ .down → q.state ≠ .live →
      answered 0 (((s.setPort p down).handReport (.portState p q.state .down)).purge p)) ∧
    (p ≠ 0 → q.state = .live →
      answered 0 ((((s.setPort p down).handReport (.portState p .live .down)).portFailed p).purge p)) ∧
    (p = 0 → exec (.setPort tag (request p 0)) s = .next (s.placeResponse (answerOf tag 0x20 .state [])))) ∧
  ∀ (s : State) (p : PortId) (k : Nat), k < 128 → (s.store.stream k).isOpen = true → (s.store.stream k).src.port = p →
    ((s.purge p).store.stream k).nextCont = none ∧
    ((s.purge p).store.stream k).subs = (s.store.stream k).subs ∧
    ((s.purge p).store.stream k).waiting = (s.store.stream k).waiting

/-! ### Requests of the maps -/

/-- Section 4.2: WRITE-MAP-ENTRY writes one entry of the shadow bank of each listed feed whole, Share and RevertDelay brought into
range, and CLEAR-MAP-ENTRY empties it; active banks, live fields and other entries stay. An empty feed set, an index, tag or source
out of range, or an AutoRevert byte above 1 is refused with RANGE, and a locked shadow with LOCKED. That a bad AutoRevert byte is
RANGE also where a shadow is locked is log entry 30. -/
def Obligations.ShadowEntriesWrittenAndCleared : Prop :=
  ∀ (tag : BitVec 16) (p : MapParams) (s : State), s.ready →
    let u := 16 * s.tbu.pendCycleLen.getD s.tbu.cycleLen
    let e := p.index.toNat
    let locked := ∃ f, hasFeed p.feeds f = true ∧ (s.map f).locked = true
    let tags := p.outTag.toNat ≤ 4093 ∧ (sourceOf p.homeSrc).isSome ∧ (optSourceOf p.fallSrc).isSome ∧ p.autoRevert.toNat ≤ 1
    let written (c : Instr) (kind : Byte) (res : Result) (x : MapEntry) : Prop :=
      ∃ t : State, exec c s = .next (t.placeResponse (answerOf tag kind res [])) ∧ t = { s with maps := t.maps } ∧
        ∀ f, (hasFeed p.feeds f = false → t.map f = s.map f) ∧
          (t.map f).activeBank = (s.map f).activeBank ∧ (t.map f).locked = (s.map f).locked ∧
          (t.map f).live = (s.map f).live ∧ (t.map f).active = (s.map f).active ∧
          (hasFeed p.feeds f = true → bankEntry (t.map f).shadow e = x) ∧
          ∀ j, j ≠ e → bankEntry (t.map f).shadow j = bankEntry (s.map f).shadow j
    let refused (c : Instr) (kind : Byte) (res : Result) : Prop := exec c s = .next (s.placeResponse (answerOf tag kind res []))
    let write := Instr.writeMapEntry tag p
    let clear := Instr.clearMapEntry tag p.feeds p.index
    (p.feeds = 0 ∨ 63 < e ∨ ¬ tags → refused write 0x30 .range) ∧
    (p.feeds ≠ 0 → e ≤ 63 → tags → locked → refused write 0x30 .locked) ∧
    (∀ home fall, s.wf = true → 1 ≤ u → p.feeds ≠ 0 → e ≤ 63 → tags → ¬ locked → sourceOf p.homeSrc = some home →
      optSourceOf p.fallSrc = some fall →
      written write 0x30
        (if p.share.toNat < 1 ∨ u < p.share.toNat ∨ p.revertDelay = 0 then .clamped else .ok)
        { used := true, outTag := p.outTag.setWidth 12, homeSrc := home, fallSrc := fall, share := max 1 (min u p.share.toNat),
          autoRevert := p.autoRevert = 1, revertDelay := max 1 p.revertDelay.toNat }) ∧
    (p.feeds = 0 ∨ 63 < e → refused clear 0x31 .range) ∧
    (p.feeds ≠ 0 → e ≤ 63 → locked → refused clear 0x31 .locked) ∧
    (s.wf = true → p.feeds ≠ 0 → e ≤ 63 → ¬ locked →
      written clear 0x31 .ok
        { used := false, outTag := 0, homeSrc := { port := 0, tag := 0 }, fallSrc := none, share := 1, autoRevert := false,
          revertDelay := 1 })

/-- Section 4.3: a COMMIT-MAP whose checks pass locks the listed shadows and enters the commit table, with no response yet; one
that fails a check changes nothing and is answered with the first failing check. For one feed that needs no stream the checks are:
shares within U, output tags and home sources distinct, and no fallback source equal to its home source. -/
def Obligations.CommitMapPendsOrIsRefused : Prop :=
  (∀ (tag : BitVec 16) (fs : BitVec 8) (s : State), s.ready →
    (s.commitCheck fs = none →
      ∃ t, exec (.commitMap tag fs) s = .next t ∧ t = { s with maps := t.maps, commits := t.commits } ∧
        t.commits = s.commits ++ [{ feeds := fs, tag := tag, considered := 0, due := false }] ∧
        ∀ f, t.map f = if hasFeed fs f then { s.map f with locked := true } else s.map f) ∧
    (∀ res l, s.commitCheck fs = some (res, l) →
      exec (.commitMap tag fs) s = .next (s.placeResponse (answerOf tag 0x32 res l)))) ∧
  (∀ s : State, s.commitCheck 0 = some (.range, [])) ∧
  (∀ (fs : BitVec 8) (f : FeedId) (s : State), hasFeed fs f = true → (s.map f).locked = true →
    s.commitCheck fs = some (.locked, [])) ∧
  ∀ (f : FeedId) (s : State), (s.map f).locked = false → s.feedNeeds f = false →
    let entry (e : Nat) : MapEntry := bankEntry (s.map f).shadow e
    let used (e : Nat) : Prop := e ∈ usedEntries (s.map f).shadow
    (16 * s.tbu.pendCycleLen.getD s.tbu.cycleLen < shareSum (s.map f).shadow →
      s.commitCheck (oneFeed f) = some (.oversubscribed, [BitVec.ofNat 8 f.val])) ∧
    (s.commitCheck (oneFeed f) = none ↔
      shareSum (s.map f).shadow ≤ 16 * s.tbu.pendCycleLen.getD s.tbu.cycleLen ∧
      (∀ a b, used a → used b → (entry a).outTag = (entry b).outTag → a = b) ∧
      (∀ a b, used a → used b → (entry a).homeSrc = (entry b).homeSrc → a = b) ∧
      ∀ a, used a → (entry a).fallSrc ≠ some (entry a).homeSrc)

/-! ### Requests of the feeds -/

/-- Section 5.1: mode RUNNING enables a DISABLED feed whose streams fit: it becomes STARTING and reads every live entry's source.
On a feed in STARTING or RUNNING it withdraws a pending test, on a feed in TEST it asks for the exit. Streams that do not fit are
refused with NO-ROOM. A TestTag given replaces the one held. Mode TEST leaves a test pending on a feed in DISABLED, STARTING or
RUNNING and withdraws a pending exit from a feed in TEST; the change waits for the slot boundary. -/
def Obligations.SetFeedModesRunningAndTest : Prop :=
  (∀ (tag : BitVec 16) (feed : BitVec 8) (testTag : BitVec 16) (s : State), s.ready →
     let request := Instr.setFeedRunning tag feed testTag
     let refused (res : Result) : Prop := exec request s = .next (s.placeResponse (answerOf tag 0x40 res []))
     let tagGood := testTag.toNat ≤ 4093 ∨ testTag = 0xFFFF
     (7 < feed.toNat ∨ ¬ tagGood → refused .range) ∧
     ∀ f : FeedId, feed.toNat = f.val → tagGood →
       let x := { s.feed f with testTag := if testTag = 0xFFFF then (s.feed f).testTag else testTag.setWidth 12 }
       let done (t : State) : Prop := exec request s = .next (t.placeResponse (answerOf tag 0x40 .ok []))
       ((s.feed f).state = .disabled ∨ (s.feed f).state = .test → s.streamsFit f = false → refused .noRoom) ∧
       ((s.feed f).state = .starting ∨ (s.feed f).state = .running → done (s.setFeed f { x with pendMode := .none })) ∧
       ((s.feed f).state = .test → s.streamsFit f = true → done (s.setFeed f { x with pendMode := .running })) ∧
       ((s.feed f).state = .disabled → s.streamsFit f = true → s.wf = true → s.store.streamsSound →
         ∃ t, done t ∧ t = { s with feeds := t.feeds, store := t.store } ∧
           t.feeds = upd s.feeds f { x with state := .starting, pendMode := .none } ∧ t.store.cells = s.store.cells ∧
           ∀ e src, e ∈ s.liveEntries f → (s.live f e).curSrc = some src →
             ∃ k, t.store.openAt src = some k ∧ hasFeed (t.store.stream k).subs f = true ∧
               hasFeed (t.store.stream k).waiting f = false))
  ∧
  (∀ (tag : BitVec 16) (feed : BitVec 8) (testTag : BitVec 16) (s : State), s.ready →
     (7 < feed.toNat ∨ (4093 < testTag.toNat ∧ testTag ≠ 0xFFFF) →
       exec (.setFeedTest tag feed testTag) s = .next (s.placeResponse (answerOf tag 0x40 .range []))) ∧
     ∀ f : FeedId, feed.toNat = f.val → testTag.toNat ≤ 4093 ∨ testTag = 0xFFFF →
       exec (.setFeedTest tag feed testTag) s =
         .next ((s.setFeed f
           { s.feed f with
             testTag := if testTag = 0xFFFF then (s.feed f).testTag else testTag.setWidth 12
             pendMode := if (s.feed f).state = .test then .none else .test }).placeResponse (answerOf tag 0x40 .ok [])))

/-- Sections 5.1 and 6.6: mode DISABLED disables a feed in any other state at once: no cell, no stream, every live entry at rest.
On a DISABLED feed it only withdraws a pending test. At the feed-stop a HELD mark of a record in NOTICED becomes STOPPED and a
STARTED item of a record in ARMED becomes ABANDONED, which completes the record when no other is STARTED. The first clauses are for
a feed that no splice record in use and no commit lists. -/
def Obligations.SetFeedDisabledStopsFeed : Prop :=
  (∀ (tag : BitVec 16) (feed : BitVec 8) (s : State) (f : FeedId), s.ready → feed.toNat = f.val →
    let done (t : State) : Prop :=
      exec (.setFeedDisabled tag feed 0xFFFF) s = .next (t.placeResponse (answerOf tag 0x40 .ok []))
    ((s.feed f).state = .disabled → done (s.setFeed f { s.feed f with pendMode := .none })) ∧
    ((s.feed f).state ≠ .disabled → s.wf = true → s.settled → s.store.streamsSound →
      (∀ r, (s.record r).inUse = true → hasFeed (s.record r).feeds f = false) → s.commitOf f = none →
      ∃ t, done t ∧ t.feeds = upd s.feeds f { s.feed f with state := .disabled, pendMode := .none, injectPending := false } ∧
        (∀ src, t.store.subscribed f src = false) ∧ (∀ g, g ≠ f → t.map g = s.map g) ∧ t.ports = s.ports ∧ t.tbu = s.tbu ∧
        t.mgmt = s.mgmt ∧ t.commits = s.commits ∧
        ∀ e, e ∈ s.liveEntries f →
          t.live f e = { Live.vacant with estate := .onAir, curSrc := some (s.entry f e).homeSrc })) ∧
  ∀ (s : State) (f : FeedId) (r : Nat), s.wf = true → hasFeed (s.record r).feeds f = true →
    let x := s.record r
    let ended := x.outcomes.map (fun o => if o = (f, SpliceResult.started) then (f, SpliceResult.abandoned) else o)
    ((s.feedStop f).record r =
      if x.status = .noticed then
        { x with marks := x.marks.map (fun m => if m = (f, Mark.held) then (f, Mark.stopped) else m) }
      else if x.status = .armed then
        { x with outcomes := ended, status := if ∃ g, (g, SpliceResult.started) ∈ ended then .armed else .complete }
      else x)

/-- R174: INJECT-PATTERN-ERROR sets InjectPending of a feed in TEST and is answered OK, again and again to the same effect; another
feed state is refused with STATE and an index above 7 with RANGE. The next pattern cell alone carries the inverted bit, and a feed
that leaves TEST before it clears the flag. -/
def Obligations.InjectPatternErrorInTest : Prop :=
  (∀ (tag : BitVec 16) (feed : BitVec 8) (s : State), s.ready →
    let refused (res : Result) : Prop := exec (.injectPatternError tag feed) s = .next (s.placeResponse (answerOf tag 0x42 res []))
    (7 < feed.toNat → refused .range) ∧
    ∀ f : FeedId, feed.toNat = f.val →
      ((s.feed f).state ≠ .test → refused .state) ∧
      ((s.feed f).state = .test →
        exec (.injectPatternError tag feed) s =
          .next ((s.setFeed f { s.feed f with injectPending := true }).placeResponse (answerOf tag 0x42 .ok [])))) ∧
  (∀ (s : State) (f : FeedId),
    let t := s.sendPattern f
    let quiet := (s.setFeed f { s.feed f with injectPending := false }).sendPattern f
    (t.feed f).injectPending = false ∧ (t.feed f).gen = (quiet.feed f).gen ∧
    ((s.feed f).injectPending = true → ∃ a b : Cell, (t.feed f).sent = some a ∧ (quiet.feed f).sent = some b ∧ a.hdr = b.hdr ∧
      (bitsOf a.payload)[0]? = (bitsOf b.payload)[0]?.map not ∧ (bitsOf a.payload).drop 1 = (bitsOf b.payload).drop 1 ∧
      mismatches (bitsOf b.payload) (bitsOf a.payload) = 1)) ∧
  ∀ (s : State) (f : FeedId), ((s.leaveTest f).feed f).injectPending = false

/-! ### Requests of the schedule -/

/-- Section 6.1: WRITE-SPLICE-RECORD writes a record that is not in use whole, its numbers brought into range, PENDING with its
lists empty; a record in use is refused with IN-USE, and an index, code, tag or source out of range, a Continue byte above 1, or an
action without a feed, with RANGE. That a bad Continue byte is RANGE also on a record in use is log entry 30. A lane parked on the
record reaches it afresh: on an action still beyond its notice it waits. The order in which lanes reach a rewritten record is log
entry 16. -/
def Obligations.SpliceRecordWritten : Prop :=
  ∀ (tag : BitVec 16) (p : SpliceParams) (s : State) (r : Nat), s.ready → p.index.toNat = r →
    let u := 16 * s.tbu.pendCycleLen.getD s.tbu.cycleLen
    let inRange := r ≤ 1023 ∧ p.nextRec.toNat ≤ 1023 ∧ p.carries.toNat ≤ 1 ∧ p.goesOn.toNat ≤ 1 ∧ p.action.toNat ≤ 2 ∧
      p.onMiss.toNat ≤ 1 ∧ p.outTag.toNat ≤ 4093 ∧ (sourceOf p.newSrc).isSome ∧ (p.carries = 0 → p.feeds ≠ 0)
    let refused (res : Result) : Prop := exec (.writeSpliceRecord tag p) s = .next (s.placeResponse (answerOf tag 0x50 res []))
    let result : Result :=
      if p.newShare.toNat < 1 ∨ u < p.newShare.toNat ∨ p.window = 0 then .clamped else .ok
    (¬ inRange → refused .range) ∧
    (inRange → (s.record r).inUse = true → refused .inUse) ∧
    ∀ src, 1 ≤ u → inRange → (s.record r).inUse = false → sourceOf p.newSrc = some src →
      let x : SpliceRecord :=
        { nextRec := p.nextRec.toNat, carries := if p.carries = 0 then .action else .link, goesOn := p.goesOn = 1,
          action := if p.action = 0 then .switch else if p.action = 1 then .returnHome else .share, feeds := p.feeds,
          outTag := p.outTag.setWidth 12, newSrc := src, newShare := max 1 (min u p.newShare.toNat), dueCycle := p.dueCycle,
          noticeLead := p.noticeLead.toNat, window := max 1 p.window.toNat, onMiss := if p.onMiss = 0 then .force else .cancel,
          status := .pending, outcomes := [], marks := [] }
      let answered (t : State) : Prop :=
        exec (.writeSpliceRecord tag p) s = .next (t.placeResponse (answerOf tag 0x50 result []))
      ((∀ l, (s.lane l).curRec = r → (s.lane l).state ≠ .waiting ∧ (s.lane l).state ≠ .parked) → answered (s.setRecord r x)) ∧
      ∀ l, (s.lane l).curRec = r → (s.lane l).state = .parked → (∀ l', l' ≠ l → (s.lane l').curRec ≠ r) → s.wf = true →
        x.carries = .action → x.noticeLead < (x.dueCycle - s.tbu.cycleNo).toNat →
        (x.dueCycle - s.tbu.cycleNo).toNat < 32768 →
        answered ((s.setRecord r x).setLane l { s.lane l with state := .waiting, linkRun := 0 })

/-- Sections 6.2 and 6.3: START-LANE brings a STOPPED lane to its head record at once, to PARK on a link record without Continue
and to WAIT on an action beyond its notice; another lane state is refused with STATE and an index out of range with RANGE. STOP-
LANE stops a lane that waits, parks or has given notice, whose record is ABANDONED, lets an ARMED one end first, and changes no
other. What stays due to a stopped lane is log entry 3. -/
def Obligations.LanesStartAndStop : Prop :=
  (∀ (tag : BitVec 16) (lane : BitVec 8) (head : BitVec 16) (s : State), s.ready →
    let refused (res : Result) : Prop := exec (.startLane tag lane head) s = .next (s.placeResponse (answerOf tag 0x52 res []))
    let r := head.toNat
    let d := ((s.record r).dueCycle - s.tbu.cycleNo).toNat
    (3 < lane.toNat ∨ 1023 < r → refused .range) ∧
    ∀ l : LaneId, lane.toNat = l.val → r ≤ 1023 →
      let done (t : State) : Prop := exec (.startLane tag lane head) s = .next (t.placeResponse (answerOf tag 0x52 .ok []))
      ((s.lane l).state ≠ .stopped → refused .state) ∧
      ((s.lane l).state = .stopped → (s.record r).carries = .link → (s.record r).goesOn = false →
        done (s.setLane l { state := .parked, curRec := r, linkRun := 0 })) ∧
      ((s.lane l).state = .stopped → (s.record r).carries = .action → (s.record r).inUse = false →
        (s.record r).noticeLead < d → d < 32768 →
        done ((s.setRecord r { s.record r with status := .pending, outcomes := [], marks := [] }).setLane l
          { state := .waiting, curRec := r, linkRun := 0 })) ∧
      ((s.lane l).state = .stopped → (s.record r).carries = .action → (s.record r).inUse = true →
        done ((s.setLane l { state := .stopped, curRec := r, linkRun := 0 }).handReport (.laneFault l r .held)))) ∧
  ∀ (tag : BitVec 16) (lane : BitVec 8) (s : State), s.ready →
    (3 < lane.toNat → exec (.stopLane tag lane) s = .next (s.placeResponse (answerOf tag 0x53 .range []))) ∧
    ∀ l : LaneId, lane.toNat = l.val →
      let x := s.lane l
      let y := s.record x.curRec
      let done (t : State) : Prop :=
        ∃ due, exec (.stopLane tag lane) s = .next (({ t with due := due } : State).placeResponse (answerOf tag 0x53 .ok []))
      (x.state = .waiting ∨ x.state = .parked → done (s.setLane l { x with state := .stopped })) ∧
      (x.state = .armed → done (s.setLane l { x with state := .stopping })) ∧
      (x.state = .stopping ∨ x.state = .stopped → done s) ∧
      (x.state = .noticed → (∀ f, y.markOf f ≠ some .held) →
        done (((s.setRecord x.curRec { y with status := .abandoned }).handReport
          (.spliceOutcome l x.curRec .abandoned [])).setLane l { x with state := .stopped }))

/-! ### Requests of reporting and management -/

/-- Sections 9.2 and 8.1: SET-REPORTING writes every report and counter setting, Period brought into 1 to 3600, and restarts
SecsLeft in AUTO; SET-GROUPS writes the four group addresses and keeps WakeState. Both answer with what stands after them, SET-
REPORTING with every setting in the order and at the widths of log entry 13; a code or an address out of range is refused with
RANGE and writes nothing. -/
def Obligations.ReportingAndGroupsWritten : Prop :=
  (∀ (tag : BitVec 16) (p : ReportingParams) (s : State), s.ready → (Request.setReporting p).wellFormed = true →
    let good := p.portEdge.toNat ≤ 1 ∧ p.timebaseEdge.toNat ≤ 1 ∧ p.patternEdge.toNat ≤ 1 ∧ p.counterMode.toNat ≤ 1
    let edge (b : BitVec 8) : EdgeMode := if b = 0 then .anyChange else .worsenOnly
    let period := max 1 (min 3600 p.period.toNat)
    (¬ good → exec (.setReporting tag p) s = .next (s.placeResponse (answerOf tag 0x60 .range []))) ∧
    let written : Mlt :=
      { s.mlt with
        enables := p.enables.setWidth 11, portEdge := edge p.portEdge, timebaseEdge := edge p.timebaseEdge,
        patternEdge := edge p.patternEdge, counterMode := if p.counterMode = 0 then .manual else .auto,
        period := period, secsLeft := if p.counterMode = 0 then none else some period }
    (good → exec (.setReporting tag p) s =
      .next (State.placeResponse { s with mlt := written }
        (answerOf tag 0x60 (if p.period.toNat < 1 ∨ 3600 < p.period.toNat then .clamped else .ok) written.settingContents)))) ∧
  ∀ (tag : BitVec 16) (p : GroupParams) (s : State), s.ready →
    let good (w : BitVec 16) : Prop := w = 0xFFFF ∨ (1 ≤ w.toNat ∧ w.toNat ≤ 4094)
    let value (w : BitVec 16) : Option (BitVec 12) := if w = 0xFFFF then none else some (w.setWidth 12)
    (¬ (good p.g0 ∧ good p.g1 ∧ good p.g2 ∧ good p.g3) →
      exec (.setGroups tag p) s = .next (s.placeResponse (answerOf tag 0x70 .range []))) ∧
    (good p.g0 → good p.g1 → good p.g2 → good p.g3 →
      exec (.setGroups tag p) s =
        .next (State.placeResponse
          { s with mgmt := { s.mgmt with groups := #v[value p.g0, value p.g1, value p.g2, value p.g3] } }
          (answerOf tag 0x70 .ok
            (bytesOf 2 s.mgmt.unitAddr.toNat ++ bytesOf 2 p.g0.toNat ++ bytesOf 2 p.g1.toNat ++ bytesOf 2 p.g2.toNat ++
              bytesOf 2 p.g3.toNat))))

/-- Section 8.6: SOFT-RESET keeps the TBU, the management state, CP0 but for its CheckTag and checker, the response queue and the
monitor link's counts, and returns everything else to its power-up values; it hands no report, and its own response is placed after
it. The cells kept as sent are log entry 7. -/
def Obligations.SoftResetKeepsAndReturns : Prop :=
  ∀ (tag : BitVec 16) (s u : State), s.ready → exec (.powerUp s.mgmt.unitAddr) s = .next u →
    ∃ t : State, exec (.softReset tag) s = .next (t.placeResponse (answerOf tag 0x71 .ok [])) ∧
      t.tbu = s.tbu ∧ t.mgmt = s.mgmt ∧ t.pending = s.pending ∧
      t.port 0 =
        { s.port 0 with
          settings := { (s.port 0).settings with checkTag := none }, chkState := .search, chkRun := 0, chkGen := 0x1FFFF } ∧
      (∀ p, p ≠ 0 → t.port p = u.port p) ∧ t.counters = u.counters ∧ t.store = u.store ∧ t.maps = u.maps ∧
      t.commits = u.commits ∧ t.heldCommits = u.heldCommits ∧ t.feeds = u.feeds ∧ t.ssu = u.ssu ∧
      t.mlt =
        { u.mlt with
          responses := s.mlt.responses, monCont := s.mlt.monCont, monFillCont := s.mlt.monFillCont, sent := s.mlt.sent }

/-! ### The departure of a feed -/

/-- Section 5.2: at accrual every live entry adds its Share to CreditAcc, up to 2 U; the arbiter picks the eligible entry of
greatest CreditAcc, the lowest index among equals, and none when no entry is eligible. -/
def Obligations.AccrualAndSelection : Prop :=
  (∀ (s : State) (f : FeedId), s.wf = true →
    let t := (s.liveEntries f).foldl (State.accrue f) s
    let u : Int := 16 * s.tbu.cycleLen
    t = { s with maps := t.maps } ∧ (∀ g, g ≠ f → t.map g = s.map g) ∧
    ∀ e, t.live f e =
      if e ∈ s.liveEntries f then
        { s.live f e with credit := min ((s.live f e).credit + (s.entry f e).share) (2 * u) }
      else s.live f e) ∧
  ∀ (s : State) (f : FeedId),
    let eligible (e : Nat) : Prop :=
      e ∈ s.liveEntries f ∧ s.headOf f e ≠ none ∧ (s.live f e).estate ≠ .inWait ∧ 0 ≤ (s.live f e).credit
    (s.select f = none ↔ ∀ e, ¬ eligible e) ∧
    ∀ e, s.select f = some e ↔
      eligible e ∧ ∀ k, eligible k →
        (s.live f k).credit < (s.live f e).credit ∨ ((s.live f k).credit = (s.live f e).credit ∧ e ≤ k)

/-- Sections 5.2 to 5.4: the entry chosen sends its head cell under its own output tag and count, Discontinuity added to the first
marked cell after a change of source, and a marked cell's time mark moved by the residence less NomDelay, held within JitLimit
either way; CLAMP rises where that changed it, the credit falls by U, and the feed holds the cell no more. -/
def Obligations.ChosenCellFormedAndReleased : Prop :=
  ∀ (s : State) (f : FeedId) (tick : BitVec 32) (e slot : Nat) (c : CellRecord), s.wf = true → s.select f = some e →
    s.headOf f e = some slot → s.store.cell slot = some c → c.payload.length = 156 →
    let t := s.sendSelected f tick
    let v := s.live f e
    let limit : Int := (s.port c.port).settings.jitLimit
    let raw : Int := ((tick - c.arriveTick).toNat : Int) - (s.port c.port).settings.nomDelay
    let shift := max (-limit) (min raw limit)
    ∃ cell, t.feed f = { s.feed f with sent := some cell } ∧ (∀ g, g ≠ f → t.feed g = s.feed g) ∧
      cell.hdr.kind = .programme ∧ cell.hdr.tag = (s.entry f e).outTag ∧ cell.hdr.boundary = c.hdr.boundary ∧
      cell.hdr.marked = c.hdr.marked ∧ cell.hdr.disc = (c.hdr.disc || (v.discPending && c.hdr.marked)) ∧
      cell.hdr.cont = v.outCont ∧ cell.hdr.check = crc8 (cell.hdr.bytes.take 3) ∧
      cell.payload.drop 5 = c.payload.drop 5 ∧ cell.payload.length = 156 ∧
      numberOf (cell.payload.take 5) =
        (if c.hdr.marked then (((numberOf (c.payload.take 5) : Int) + shift) % 2 ^ 40).toNat
         else numberOf (c.payload.take 5)) ∧
      t.live f e =
        { v with
          credit := v.credit - 16 * s.tbu.cycleLen, outCont := v.outCont + 1, discPending := v.discPending && !c.hdr.marked } ∧
      t.counter (.feed f .clamp) =
        (if c.hdr.marked = true ∧ shift ≠ raw then min (s.counter (.feed f .clamp) + 1) 65535
         else s.counter (.feed f .clamp)) ∧
      t.store.holds f slot = false

/-- Sections 5.2 and 3.1: in ON-AIR and FALLBACK a head cell within MaxAge of its port is left in its place; an older one is
released for the feed alone and counted in STALE of its port, and when no other feed holds it its slot goes on top of the free pool
and Occ falls by one. -/
def Obligations.StaleHeadCellDiscarded : Prop :=
  ∀ (s : State) (f : FeedId) (e slot : Nat) (c : CellRecord) (rest : List Nat) (tick : BitVec 32), s.wf = true →
    s.store.poolSound → (s.live f e).estate = .onAir ∨ (s.live f e).estate = .fallback → s.cellsOf f e = slot :: rest →
    s.store.cell slot = some c →
    let t := State.evaluateHead tick f s e
    let age := (tick - c.arriveTick).toNat
    (age ≤ (s.port c.port).settings.maxAge → t = s) ∧
    ((s.port c.port).settings.maxAge < age → rest = [] →
      t.counter (.port c.port .stale) = min (s.counter (.port c.port .stale) + 1) 65535 ∧
      (∀ d, d ≠ .port c.port .stale → t.counter d = s.counter d) ∧
      t.store.holds f slot = false ∧
      (∀ g k, g ≠ f ∨ k ≠ slot → t.store.holds g k = s.store.holds g k) ∧
      (c.holders = oneFeed f →
        t.store.cell slot = none ∧ t.store.pool.stack = slot :: s.store.pool.stack ∧
        t.store.occ.get c.port = s.store.occ.get c.port - 1) ∧
      (c.holders ≠ oneFeed f → t.store.pool = s.store.pool ∧ t.store.occ = s.store.occ) ∧
      t.maps = s.maps ∧ t.feeds = s.feeds ∧ t.ports = s.ports ∧ t.ssu = s.ssu)

/-! ### Headline results -/

/-- Sections 11.1 and 2.3: a cell that the part forms reads back, as 160 bytes at a contribution port, with a correct check and
every header field and payload byte as it was formed. -/
def Obligations.SentCellReadsBack : Prop :=
  ∀ (h : Header) (payload : List Byte), payload.length = 156 →
    let unit := Cell.bytes { hdr := h.sealed, payload := payload }
    unit.length = 160 ∧ headerGood unit = true ∧ unitPayload unit = payload ∧
      unitHeader unit = { h with check := (unitHeader unit).check } ∧ (unitHeader unit).check = crc8 (unit.take 3)

/-- Chapters 3, 4 and 6: every step keeps the cell store, the stream table, the maps and schedule memory in their canonical form,
no two OPEN stream records naming one stream, every waiting feed a subscriber, and every slot either in the free pool, once, or
holding a cell. The canonical form is the model's own (log entry 23). -/
def Obligations.StepsKeepStoresSound : Prop :=
  ∀ s t : State, s.wf = true ∧ s.store.streamsSound ∧ s.store.poolSound → step s = .next t →
    t.wf = true ∧ t.store.streamsSound ∧ t.store.poolSound

/-- Chapters 1, 8 and 9: every step keeps each item of the TBU, each counter, the report queue with DropCount, the intake queue and
the response queue in the ranges that the tables give, ExpMark held exactly in LOCKED, and requests queued only behind a held
response. -/
def Obligations.StepsKeepItemsInRange : Prop :=
  ∀ s t : State,
    s.tbu.inRange ∧ s.counters.inRange ∧ s.mlt.reportsInRange ∧ s.queuesInRange → step s = .next t →
      t.tbu.inRange ∧ t.counters.inRange ∧ t.mlt.reportsInRange ∧ t.queuesInRange

/-- Section 2.1: CP0 is enabled, and is in DOWN at no time: every step keeps it so. -/
def Obligations.StepsKeepNationalPortEnabled : Prop :=
  ∀ s t : State, (s.port 0).state ≠ .down ∧ (s.port 0).settings.enable = true → step s = .next t →
    (t.port 0).state ≠ .down ∧ (t.port 0).settings.enable = true

/-- Section 6.7: no step leaves a record ARMED whose last STARTED item has had its outcome, nor a lane that has still to move on
from a completed record: both are done in the same step. That the lane moves on when the event has been applied whole is log entry
8. -/
def Obligations.StepsCompleteRecordsAtLastOutcome : Prop :=
  ∀ s t : State, s.wf = true ∧ s.settled → step s = .next t → t.settled

/-- The invariants that every step keeps hold at power-up, so in State.reset. -/
def Obligations.InvariantsHoldAtReset : Prop :=
  let s := State.reset
  s.wf = true ∧ s.store.streamsSound ∧ s.store.poolSound ∧ s.tbu.inRange ∧ s.counters.inRange ∧ s.mlt.reportsInRange ∧
    s.queuesInRange ∧ (s.port 0).state ≠ .down ∧ (s.port 0).settings.enable = true ∧ s.settled
end

