-- ==== Sys2Proof/Laws/Table.lean ====
section
/-! SUPPORT. Laws of the containers: reading after writing a table or a vector, and the canonical form of tables. -/

namespace Sys2Proof.Machine

variable {α : Type}

/-! ### Vectors -/

@[simp] theorem upd_get_same {n : Nat} (v : Vector α n) (i : Fin n) (x : α) : (upd v i x).get i = x := by
  simp [upd, Vector.get_eq_getElem]

theorem upd_get_other {n : Nat} (v : Vector α n) {i j : Fin n} (x : α) (h : i ≠ j) : (upd v i x).get j = v.get j := by
  have h' : i.val ≠ j.val := fun e => h (Fin.ext e)
  simp [upd, Vector.get_eq_getElem, h']

theorem upd_get {n : Nat} (v : Vector α n) (i j : Fin n) (x : α) :
    (upd v i x).get j = if i = j then x else v.get j := by
  by_cases h : i = j
  · subst h; simp
  · simp [h, upd_get_other]

/-- Writing back what is read changes nothing. -/
@[simp] theorem upd_get_self {n : Nat} (v : Vector α n) (i : Fin n) : upd v i (v.get i) = v := by
  apply Vector.ext
  intro j hj
  by_cases h : i.val = j <;> simp [upd, Vector.get_eq_getElem, h]

@[simp] theorem upd_upd {n : Nat} (v : Vector α n) (i : Fin n) (x y : α) : upd (upd v i x) i y = upd v i y := by
  simp [upd]

/-! ### Tables -/

@[simp] theorem Table.find_put_same (t : List (Nat × α)) (i : Nat) (x : α) : Table.find (Table.put t i x) i = some x := by
  induction t with
  | nil => simp [Table.put, Table.find]
  | cons kv t ih =>
    obtain ⟨k, v⟩ := kv
    by_cases h1 : i < k
    · simp [Table.put, Table.find, h1]
    · by_cases h2 : i = k
      · subst h2; simp [Table.put, Table.find]
      · simp [Table.put, Table.find, h1, h2, ih, Ne.symm h2]

theorem Table.find_put_other (t : List (Nat × α)) {i j : Nat} (x : α) (h : i ≠ j) :
    Table.find (Table.put t i x) j = Table.find t j := by
  induction t with
  | nil => simp [Table.put, Table.find, h]
  | cons kv t ih =>
    obtain ⟨k, v⟩ := kv
    by_cases h1 : i < k
    · simp [Table.put, Table.find, h1, h]
    · by_cases h2 : i = k
      · subst h2; simp [Table.put, Table.find, h]
      · simp only [Table.put, Table.find, h1, h2, if_false, ih]

/-- Every key of a table is above a bound. -/
def Table.above (k : Nat) (t : List (Nat × α)) : Prop := ∀ kv ∈ t, k < kv.1

theorem Table.sorted_cons (k : Nat) (v : α) (t : List (Nat × α)) :
    Table.sorted ((k, v) :: t) = true ↔ Table.above k t ∧ Table.sorted t = true := by
  simp [Table.sorted, Table.above]

theorem Table.find_above {k : Nat} {t : List (Nat × α)} (h : Table.above k t) {i : Nat} (hi : i ≤ k) :
    Table.find t i = none := by
  induction t with
  | nil => rfl
  | cons kv t ih =>
    obtain ⟨j, v⟩ := kv
    have hj : k < j := h (j, v) (by simp)
    have : j ≠ i := by omega
    simp only [Table.find, this, if_false]
    exact ih (fun kv hkv => h kv (List.mem_cons_of_mem _ hkv))

theorem Table.find_erase_same {t : List (Nat × α)} (hs : Table.sorted t = true) (i : Nat) :
    Table.find (Table.erase t i) i = none := by
  induction t with
  | nil => rfl
  | cons kv t ih =>
    obtain ⟨k, v⟩ := kv
    rw [Table.sorted_cons] at hs
    by_cases h : k = i
    · subst h; simpa [Table.erase] using Table.find_above hs.1 (Nat.le_refl _)
    · simp [Table.erase, Table.find, h, ih hs.2]

theorem Table.find_erase_other (t : List (Nat × α)) {i j : Nat} (h : i ≠ j) :
    Table.find (Table.erase t i) j = Table.find t j := by
  induction t with
  | nil => rfl
  | cons kv t ih =>
    obtain ⟨k, v⟩ := kv
    by_cases h1 : k = i
    · subst h1; simp [Table.erase, Table.find, h]
    · by_cases h2 : k = j
      · subst h2; simp [Table.erase, Table.find, h1]
      · simp [Table.erase, Table.find, h1, h2, ih]

theorem Table.mem_put {t : List (Nat × α)} {i : Nat} {x : α} {kv : Nat × α} (h : kv ∈ Table.put t i x) :
    kv = (i, x) ∨ kv ∈ t := by
  induction t with
  | nil => simpa [Table.put] using h
  | cons kw t ih =>
    obtain ⟨k, v⟩ := kw
    by_cases h1 : i < k
    · simpa [Table.put, h1] using h
    · by_cases h2 : i = k
      · subst h2
        simp only [Table.put, Nat.lt_irrefl, if_false, if_true, List.mem_cons] at h
        rcases h with h | h
        · exact .inl h
        · exact .inr (List.mem_cons_of_mem _ h)
      · simp only [Table.put, h1, h2, if_false, List.mem_cons] at h
        rcases h with h | h
        · exact .inr (by simp [h])
        · rcases ih h with h | h
          · exact .inl h
          · exact .inr (List.mem_cons_of_mem _ h)

theorem Table.mem_erase {t : List (Nat × α)} {i : Nat} {kv : Nat × α} (h : kv ∈ Table.erase t i) : kv ∈ t := by
  induction t with
  | nil => simp [Table.erase] at h
  | cons kw t ih =>
    obtain ⟨k, v⟩ := kw
    by_cases h1 : k = i
    · simp only [Table.erase, h1, if_true] at h
      exact List.mem_cons_of_mem _ h
    · simp only [Table.erase, h1, if_false, List.mem_cons] at h
      rcases h with h | h
      · simp [h]
      · exact List.mem_cons_of_mem _ (ih h)

theorem Table.sorted_put {t : List (Nat × α)} (hs : Table.sorted t = true) (i : Nat) (x : α) :
    Table.sorted (Table.put t i x) = true := by
  induction t with
  | nil => rfl
  | cons kv t ih =>
    obtain ⟨k, v⟩ := kv
    have hs' := (Table.sorted_cons k v t).1 hs
    by_cases h1 : i < k
    · simp only [Table.put, h1, if_true]
      refine (Table.sorted_cons i x _).2 ⟨?_, hs⟩
      intro kv hkv
      rcases List.mem_cons.1 hkv with rfl | hkv
      · exact h1
      · exact Nat.lt_trans h1 (hs'.1 kv hkv)
    · by_cases h2 : i = k
      · subst h2
        simp only [Table.put, Nat.lt_irrefl, if_false, if_true]
        exact (Table.sorted_cons i x t).2 hs'
      · simp only [Table.put, h1, h2, if_false]
        refine (Table.sorted_cons k v _).2 ⟨?_, ih hs'.2⟩
        intro kv hkv
        rcases Table.mem_put hkv with rfl | hkv
        · exact Nat.lt_of_le_of_ne (Nat.le_of_not_lt h1) (Ne.symm h2)
        · exact hs'.1 kv hkv

theorem Table.sorted_erase {t : List (Nat × α)} (hs : Table.sorted t = true) (i : Nat) :
    Table.sorted (Table.erase t i) = true := by
  induction t with
  | nil => rfl
  | cons kv t ih =>
    obtain ⟨k, v⟩ := kv
    have hs' := (Table.sorted_cons k v t).1 hs
    by_cases h1 : k = i
    · simpa [Table.erase, h1] using hs'.2
    · simp only [Table.erase, h1, if_false]
      exact (Table.sorted_cons k v _).2 ⟨fun kv hkv => hs'.1 kv (Table.mem_erase hkv), ih hs'.2⟩

variable [DecidableEq α]

theorem Table.wf_iff (d : α) (t : List (Nat × α)) :
    Table.wf d t = true ↔ Table.sorted t = true ∧ ∀ kv ∈ t, kv.2 ≠ d := by
  simp [Table.wf]

/-- A write reads back. -/
theorem Table.get_set_same {d : α} {t : List (Nat × α)} (hs : Table.sorted t = true) (i : Nat) (x : α) :
    Table.get d (Table.set d t i x) i = x := by
  by_cases h : x = d
  · subst h; simp [Table.get, Table.set, Table.find_erase_same hs]
  · simp [Table.get, Table.set, h]

/-- A write leaves every other index alone. -/
theorem Table.get_set_other (d : α) (t : List (Nat × α)) {i j : Nat} (x : α) (h : i ≠ j) :
    Table.get d (Table.set d t i x) j = Table.get d t j := by
  by_cases hx : x = d
  · simp [Table.get, Table.set, hx, Table.find_erase_other t h]
  · simp [Table.get, Table.set, hx, Table.find_put_other t x h]

/-- A write keeps the canonical form. -/
theorem Table.wf_set {d : α} {t : List (Nat × α)} (h : Table.wf d t = true) (i : Nat) (x : α) :
    Table.wf d (Table.set d t i x) = true := by
  rw [Table.wf_iff] at h ⊢
  by_cases hx : x = d
  · simp only [Table.set, hx, if_true]
    exact ⟨Table.sorted_erase h.1 i, fun kv hkv => h.2 kv (Table.mem_erase hkv)⟩
  · simp only [Table.set, hx, if_false]
    refine ⟨Table.sorted_put h.1 i x, fun kv hkv => ?_⟩
    rcases Table.mem_put hkv with rfl | hkv
    · exact hx
    · exact h.2 kv hkv

theorem Table.sorted_of_wf {d : α} {t : List (Nat × α)} (h : Table.wf d t = true) : Table.sorted t = true :=
  ((Table.wf_iff d t).1 h).1

/-- A change of the contents that keeps them off the default keeps the canonical form. -/
theorem Table.wf_map {d : α} {t : List (Nat × α)} (h : Table.wf d t = true) (g : α → α) (hg : ∀ x, x ≠ d → g x ≠ d) :
    Table.wf d (t.map (fun kv => (kv.1, g kv.2))) = true := by
  rw [Table.wf_iff] at h ⊢
  refine ⟨?_, ?_⟩
  · have := h.1
    clear h
    induction t with
    | nil => rfl
    | cons kv t ih =>
      obtain ⟨k, v⟩ := kv
      have hs := (Table.sorted_cons k v t).1 this
      refine (Table.sorted_cons k (g v) _).2 ⟨?_, ih hs.2⟩
      intro kv hkv
      obtain ⟨kw, hkw, rfl⟩ := List.mem_map.1 hkv
      exact hs.1 kw hkw
  · intro kv hkv
    obtain ⟨kw, hkw, rfl⟩ := List.mem_map.1 hkv
    exact hg _ (h.2 kw hkw)

end Sys2Proof.Machine
end

