-- ==== Sys2Proof/Laws/State.lean ====
section
/-! SUPPORT. What each named write of State leaves alone, field by field, and what each read gives after a write. -/

namespace Sys2Proof.Machine

variable (s : State)

/-! ### setPort -/

@[simp] theorem State.setPort_tbu (p : PortId) (q : Port) : (s.setPort p q).tbu = s.tbu := rfl

@[simp] theorem State.setPort_counters (p : PortId) (q : Port) : (s.setPort p q).counters = s.counters := rfl

@[simp] theorem State.setPort_store (p : PortId) (q : Port) : (s.setPort p q).store = s.store := rfl

@[simp] theorem State.setPort_maps (p : PortId) (q : Port) : (s.setPort p q).maps = s.maps := rfl

@[simp] theorem State.setPort_commits (p : PortId) (q : Port) : (s.setPort p q).commits = s.commits := rfl

@[simp] theorem State.setPort_heldCommits (p : PortId) (q : Port) : (s.setPort p q).heldCommits = s.heldCommits := rfl

@[simp] theorem State.setPort_feeds (p : PortId) (q : Port) : (s.setPort p q).feeds = s.feeds := rfl

@[simp] theorem State.setPort_ssu (p : PortId) (q : Port) : (s.setPort p q).ssu = s.ssu := rfl

@[simp] theorem State.setPort_mgmt (p : PortId) (q : Port) : (s.setPort p q).mgmt = s.mgmt := rfl

@[simp] theorem State.setPort_mlt (p : PortId) (q : Port) : (s.setPort p q).mlt = s.mlt := rfl

@[simp] theorem State.setPort_due (p : PortId) (q : Port) : (s.setPort p q).due = s.due := rfl

@[simp] theorem State.setPort_pending (p : PortId) (q : Port) : (s.setPort p q).pending = s.pending := rfl

/-! ### setFeed -/

@[simp] theorem State.setFeed_tbu (f : FeedId) (x : Feed) : (s.setFeed f x).tbu = s.tbu := rfl

@[simp] theorem State.setFeed_ports (f : FeedId) (x : Feed) : (s.setFeed f x).ports = s.ports := rfl

@[simp] theorem State.setFeed_counters (f : FeedId) (x : Feed) : (s.setFeed f x).counters = s.counters := rfl

@[simp] theorem State.setFeed_store (f : FeedId) (x : Feed) : (s.setFeed f x).store = s.store := rfl

@[simp] theorem State.setFeed_maps (f : FeedId) (x : Feed) : (s.setFeed f x).maps = s.maps := rfl

@[simp] theorem State.setFeed_commits (f : FeedId) (x : Feed) : (s.setFeed f x).commits = s.commits := rfl

@[simp] theorem State.setFeed_heldCommits (f : FeedId) (x : Feed) : (s.setFeed f x).heldCommits = s.heldCommits := rfl

@[simp] theorem State.setFeed_ssu (f : FeedId) (x : Feed) : (s.setFeed f x).ssu = s.ssu := rfl

@[simp] theorem State.setFeed_mgmt (f : FeedId) (x : Feed) : (s.setFeed f x).mgmt = s.mgmt := rfl

@[simp] theorem State.setFeed_mlt (f : FeedId) (x : Feed) : (s.setFeed f x).mlt = s.mlt := rfl

@[simp] theorem State.setFeed_due (f : FeedId) (x : Feed) : (s.setFeed f x).due = s.due := rfl

@[simp] theorem State.setFeed_pending (f : FeedId) (x : Feed) : (s.setFeed f x).pending = s.pending := rfl

/-! ### setMap -/

@[simp] theorem State.setMap_tbu (f : FeedId) (m : FeedMap) : (s.setMap f m).tbu = s.tbu := rfl

@[simp] theorem State.setMap_ports (f : FeedId) (m : FeedMap) : (s.setMap f m).ports = s.ports := rfl

@[simp] theorem State.setMap_counters (f : FeedId) (m : FeedMap) : (s.setMap f m).counters = s.counters := rfl

@[simp] theorem State.setMap_store (f : FeedId) (m : FeedMap) : (s.setMap f m).store = s.store := rfl

@[simp] theorem State.setMap_commits (f : FeedId) (m : FeedMap) : (s.setMap f m).commits = s.commits := rfl

@[simp] theorem State.setMap_heldCommits (f : FeedId) (m : FeedMap) : (s.setMap f m).heldCommits = s.heldCommits := rfl

@[simp] theorem State.setMap_feeds (f : FeedId) (m : FeedMap) : (s.setMap f m).feeds = s.feeds := rfl

@[simp] theorem State.setMap_ssu (f : FeedId) (m : FeedMap) : (s.setMap f m).ssu = s.ssu := rfl

@[simp] theorem State.setMap_mgmt (f : FeedId) (m : FeedMap) : (s.setMap f m).mgmt = s.mgmt := rfl

@[simp] theorem State.setMap_mlt (f : FeedId) (m : FeedMap) : (s.setMap f m).mlt = s.mlt := rfl

@[simp] theorem State.setMap_due (f : FeedId) (m : FeedMap) : (s.setMap f m).due = s.due := rfl

@[simp] theorem State.setMap_pending (f : FeedId) (m : FeedMap) : (s.setMap f m).pending = s.pending := rfl

/-! ### setLive -/

@[simp] theorem State.setLive_tbu (f : FeedId) (e : Nat) (v : Live) : (s.setLive f e v).tbu = s.tbu := rfl

@[simp] theorem State.setLive_ports (f : FeedId) (e : Nat) (v : Live) : (s.setLive f e v).ports = s.ports := rfl

@[simp] theorem State.setLive_counters (f : FeedId) (e : Nat) (v : Live) : (s.setLive f e v).counters = s.counters := rfl

@[simp] theorem State.setLive_store (f : FeedId) (e : Nat) (v : Live) : (s.setLive f e v).store = s.store := rfl

@[simp] theorem State.setLive_commits (f : FeedId) (e : Nat) (v : Live) : (s.setLive f e v).commits = s.commits := rfl

@[simp] theorem State.setLive_heldCommits (f : FeedId) (e : Nat) (v : Live) : (s.setLive f e v).heldCommits = s.heldCommits := rfl

@[simp] theorem State.setLive_feeds (f : FeedId) (e : Nat) (v : Live) : (s.setLive f e v).feeds = s.feeds := rfl

@[simp] theorem State.setLive_ssu (f : FeedId) (e : Nat) (v : Live) : (s.setLive f e v).ssu = s.ssu := rfl

@[simp] theorem State.setLive_mgmt (f : FeedId) (e : Nat) (v : Live) : (s.setLive f e v).mgmt = s.mgmt := rfl

@[simp] theorem State.setLive_mlt (f : FeedId) (e : Nat) (v : Live) : (s.setLive f e v).mlt = s.mlt := rfl

@[simp] theorem State.setLive_due (f : FeedId) (e : Nat) (v : Live) : (s.setLive f e v).due = s.due := rfl

@[simp] theorem State.setLive_pending (f : FeedId) (e : Nat) (v : Live) : (s.setLive f e v).pending = s.pending := rfl

/-! ### setRecord -/

@[simp] theorem State.setRecord_tbu (r : Nat) (x : SpliceRecord) : (s.setRecord r x).tbu = s.tbu := rfl

@[simp] theorem State.setRecord_ports (r : Nat) (x : SpliceRecord) : (s.setRecord r x).ports = s.ports := rfl

@[simp] theorem State.setRecord_counters (r : Nat) (x : SpliceRecord) : (s.setRecord r x).counters = s.counters := rfl

@[simp] theorem State.setRecord_store (r : Nat) (x : SpliceRecord) : (s.setRecord r x).store = s.store := rfl

@[simp] theorem State.setRecord_maps (r : Nat) (x : SpliceRecord) : (s.setRecord r x).maps = s.maps := rfl

@[simp] theorem State.setRecord_commits (r : Nat) (x : SpliceRecord) : (s.setRecord r x).commits = s.commits := rfl

@[simp] theorem State.setRecord_heldCommits (r : Nat) (x : SpliceRecord) : (s.setRecord r x).heldCommits = s.heldCommits := rfl

@[simp] theorem State.setRecord_feeds (r : Nat) (x : SpliceRecord) : (s.setRecord r x).feeds = s.feeds := rfl

@[simp] theorem State.setRecord_mgmt (r : Nat) (x : SpliceRecord) : (s.setRecord r x).mgmt = s.mgmt := rfl

@[simp] theorem State.setRecord_mlt (r : Nat) (x : SpliceRecord) : (s.setRecord r x).mlt = s.mlt := rfl

@[simp] theorem State.setRecord_due (r : Nat) (x : SpliceRecord) : (s.setRecord r x).due = s.due := rfl

@[simp] theorem State.setRecord_pending (r : Nat) (x : SpliceRecord) : (s.setRecord r x).pending = s.pending := rfl

/-! ### setLane -/

@[simp] theorem State.setLane_tbu (l : LaneId) (x : Lane) : (s.setLane l x).tbu = s.tbu := rfl

@[simp] theorem State.setLane_ports (l : LaneId) (x : Lane) : (s.setLane l x).ports = s.ports := rfl

@[simp] theorem State.setLane_counters (l : LaneId) (x : Lane) : (s.setLane l x).counters = s.counters := rfl

@[simp] theorem State.setLane_store (l : LaneId) (x : Lane) : (s.setLane l x).store = s.store := rfl

@[simp] theorem State.setLane_maps (l : LaneId) (x : Lane) : (s.setLane l x).maps = s.maps := rfl

@[simp] theorem State.setLane_commits (l : LaneId) (x : Lane) : (s.setLane l x).commits = s.commits := rfl

@[simp] theorem State.setLane_heldCommits (l : LaneId) (x : Lane) : (s.setLane l x).heldCommits = s.heldCommits := rfl

@[simp] theorem State.setLane_feeds (l : LaneId) (x : Lane) : (s.setLane l x).feeds = s.feeds := rfl

@[simp] theorem State.setLane_mgmt (l : LaneId) (x : Lane) : (s.setLane l x).mgmt = s.mgmt := rfl

@[simp] theorem State.setLane_mlt (l : LaneId) (x : Lane) : (s.setLane l x).mlt = s.mlt := rfl

@[simp] theorem State.setLane_due (l : LaneId) (x : Lane) : (s.setLane l x).due = s.due := rfl

@[simp] theorem State.setLane_pending (l : LaneId) (x : Lane) : (s.setLane l x).pending = s.pending := rfl

/-! ### emit -/

@[simp] theorem State.emit_tbu (f : FeedId) (c : Option Cell) : (s.emit f c).tbu = s.tbu := rfl

@[simp] theorem State.emit_ports (f : FeedId) (c : Option Cell) : (s.emit f c).ports = s.ports := rfl

@[simp] theorem State.emit_counters (f : FeedId) (c : Option Cell) : (s.emit f c).counters = s.counters := rfl

@[simp] theorem State.emit_store (f : FeedId) (c : Option Cell) : (s.emit f c).store = s.store := rfl

@[simp] theorem State.emit_maps (f : FeedId) (c : Option Cell) : (s.emit f c).maps = s.maps := rfl

@[simp] theorem State.emit_commits (f : FeedId) (c : Option Cell) : (s.emit f c).commits = s.commits := rfl

@[simp] theorem State.emit_heldCommits (f : FeedId) (c : Option Cell) : (s.emit f c).heldCommits = s.heldCommits := rfl

@[simp] theorem State.emit_ssu (f : FeedId) (c : Option Cell) : (s.emit f c).ssu = s.ssu := rfl

@[simp] theorem State.emit_mgmt (f : FeedId) (c : Option Cell) : (s.emit f c).mgmt = s.mgmt := rfl

@[simp] theorem State.emit_mlt (f : FeedId) (c : Option Cell) : (s.emit f c).mlt = s.mlt := rfl

@[simp] theorem State.emit_due (f : FeedId) (c : Option Cell) : (s.emit f c).due = s.due := rfl

@[simp] theorem State.emit_pending (f : FeedId) (c : Option Cell) : (s.emit f c).pending = s.pending := rfl

/-! ### setPendMode -/

@[simp] theorem State.setPendMode_tbu (f : FeedId) (m : PendMode) : (s.setPendMode f m).tbu = s.tbu := rfl

@[simp] theorem State.setPendMode_ports (f : FeedId) (m : PendMode) : (s.setPendMode f m).ports = s.ports := rfl

@[simp] theorem State.setPendMode_counters (f : FeedId) (m : PendMode) : (s.setPendMode f m).counters = s.counters := rfl

@[simp] theorem State.setPendMode_store (f : FeedId) (m : PendMode) : (s.setPendMode f m).store = s.store := rfl

@[simp] theorem State.setPendMode_maps (f : FeedId) (m : PendMode) : (s.setPendMode f m).maps = s.maps := rfl

@[simp] theorem State.setPendMode_commits (f : FeedId) (m : PendMode) : (s.setPendMode f m).commits = s.commits := rfl

@[simp] theorem State.setPendMode_heldCommits (f : FeedId) (m : PendMode) : (s.setPendMode f m).heldCommits = s.heldCommits := rfl

@[simp] theorem State.setPendMode_ssu (f : FeedId) (m : PendMode) : (s.setPendMode f m).ssu = s.ssu := rfl

@[simp] theorem State.setPendMode_mgmt (f : FeedId) (m : PendMode) : (s.setPendMode f m).mgmt = s.mgmt := rfl

@[simp] theorem State.setPendMode_mlt (f : FeedId) (m : PendMode) : (s.setPendMode f m).mlt = s.mlt := rfl

@[simp] theorem State.setPendMode_due (f : FeedId) (m : PendMode) : (s.setPendMode f m).due = s.due := rfl

@[simp] theorem State.setPendMode_pending (f : FeedId) (m : PendMode) : (s.setPendMode f m).pending = s.pending := rfl

/-! ### placeResponse -/

@[simp] theorem State.placeResponse_tbu (r : Response) : (s.placeResponse r).tbu = s.tbu := rfl

@[simp] theorem State.placeResponse_ports (r : Response) : (s.placeResponse r).ports = s.ports := rfl

@[simp] theorem State.placeResponse_counters (r : Response) : (s.placeResponse r).counters = s.counters := rfl

@[simp] theorem State.placeResponse_store (r : Response) : (s.placeResponse r).store = s.store := rfl

@[simp] theorem State.placeResponse_maps (r : Response) : (s.placeResponse r).maps = s.maps := rfl

@[simp] theorem State.placeResponse_commits (r : Response) : (s.placeResponse r).commits = s.commits := rfl

@[simp] theorem State.placeResponse_heldCommits (r : Response) : (s.placeResponse r).heldCommits = s.heldCommits := rfl

@[simp] theorem State.placeResponse_feeds (r : Response) : (s.placeResponse r).feeds = s.feeds := rfl

@[simp] theorem State.placeResponse_ssu (r : Response) : (s.placeResponse r).ssu = s.ssu := rfl

@[simp] theorem State.placeResponse_mgmt (r : Response) : (s.placeResponse r).mgmt = s.mgmt := rfl

@[simp] theorem State.placeResponse_due (r : Response) : (s.placeResponse r).due = s.due := rfl

@[simp] theorem State.placeResponse_pending (r : Response) : (s.placeResponse r).pending = s.pending := rfl

/-! ### stopLaneNow -/

@[simp] theorem State.stopLaneNow_tbu (l : LaneId) : (s.stopLaneNow l).tbu = s.tbu := rfl

@[simp] theorem State.stopLaneNow_ports (l : LaneId) : (s.stopLaneNow l).ports = s.ports := rfl

@[simp] theorem State.stopLaneNow_counters (l : LaneId) : (s.stopLaneNow l).counters = s.counters := rfl

@[simp] theorem State.stopLaneNow_store (l : LaneId) : (s.stopLaneNow l).store = s.store := rfl

@[simp] theorem State.stopLaneNow_maps (l : LaneId) : (s.stopLaneNow l).maps = s.maps := rfl

@[simp] theorem State.stopLaneNow_commits (l : LaneId) : (s.stopLaneNow l).commits = s.commits := rfl

@[simp] theorem State.stopLaneNow_heldCommits (l : LaneId) : (s.stopLaneNow l).heldCommits = s.heldCommits := rfl

@[simp] theorem State.stopLaneNow_feeds (l : LaneId) : (s.stopLaneNow l).feeds = s.feeds := rfl

@[simp] theorem State.stopLaneNow_mgmt (l : LaneId) : (s.stopLaneNow l).mgmt = s.mgmt := rfl

@[simp] theorem State.stopLaneNow_mlt (l : LaneId) : (s.stopLaneNow l).mlt = s.mlt := rfl

@[simp] theorem State.stopLaneNow_due (l : LaneId) : (s.stopLaneNow l).due = s.due := rfl

@[simp] theorem State.stopLaneNow_pending (l : LaneId) : (s.stopLaneNow l).pending = s.pending := rfl

/-! ### restLane -/

@[simp] theorem State.restLane_tbu (l : LaneId) (st : LaneState) : (s.restLane l st).tbu = s.tbu := rfl

@[simp] theorem State.restLane_ports (l : LaneId) (st : LaneState) : (s.restLane l st).ports = s.ports := rfl

@[simp] theorem State.restLane_counters (l : LaneId) (st : LaneState) : (s.restLane l st).counters = s.counters := rfl

@[simp] theorem State.restLane_store (l : LaneId) (st : LaneState) : (s.restLane l st).store = s.store := rfl

@[simp] theorem State.restLane_maps (l : LaneId) (st : LaneState) : (s.restLane l st).maps = s.maps := rfl

@[simp] theorem State.restLane_commits (l : LaneId) (st : LaneState) : (s.restLane l st).commits = s.commits := rfl

@[simp] theorem State.restLane_heldCommits (l : LaneId) (st : LaneState) : (s.restLane l st).heldCommits = s.heldCommits := rfl

@[simp] theorem State.restLane_feeds (l : LaneId) (st : LaneState) : (s.restLane l st).feeds = s.feeds := rfl

@[simp] theorem State.restLane_mgmt (l : LaneId) (st : LaneState) : (s.restLane l st).mgmt = s.mgmt := rfl

@[simp] theorem State.restLane_mlt (l : LaneId) (st : LaneState) : (s.restLane l st).mlt = s.mlt := rfl

@[simp] theorem State.restLane_due (l : LaneId) (st : LaneState) : (s.restLane l st).due = s.due := rfl

@[simp] theorem State.restLane_pending (l : LaneId) (st : LaneState) : (s.restLane l st).pending = s.pending := rfl

/-! ### Reads after writes -/

@[simp] theorem State.setPort_port (p : PortId) (q : Port) : (s.setPort p q).port p = q := by
  simp [State.setPort, State.port]

theorem State.setPort_port_other {p p' : PortId} (q : Port) (h : p ≠ p') : (s.setPort p q).port p' = s.port p' := by
  simp [State.setPort, State.port, upd_get_other _ _ h]

@[simp] theorem State.setFeed_feed (f : FeedId) (x : Feed) : (s.setFeed f x).feed f = x := by
  simp [State.setFeed, State.feed]

theorem State.setFeed_feed_other {f f' : FeedId} (x : Feed) (h : f ≠ f') : (s.setFeed f x).feed f' = s.feed f' := by
  simp [State.setFeed, State.feed, upd_get_other _ _ h]

@[simp] theorem State.setMap_map (f : FeedId) (m : FeedMap) : (s.setMap f m).map f = m := by
  simp [State.setMap, State.map]

theorem State.setMap_map_other {f f' : FeedId} (m : FeedMap) (h : f ≠ f') : (s.setMap f m).map f' = s.map f' := by
  simp [State.setMap, State.map, upd_get_other _ _ h]

@[simp] theorem State.setLane_lane (l : LaneId) (x : Lane) : (s.setLane l x).lane l = x := by
  simp [State.setLane, State.lane]

theorem State.setLane_lane_other {l l' : LaneId} (x : Lane) (h : l ≠ l') : (s.setLane l x).lane l' = s.lane l' := by
  simp [State.setLane, State.lane, upd_get_other _ _ h]

@[simp] theorem State.setLane_record (l : LaneId) (x : Lane) (r : Nat) : (s.setLane l x).record r = s.record r := rfl

@[simp] theorem State.setRecord_lane (r : Nat) (x : SpliceRecord) (l : LaneId) : (s.setRecord r x).lane l = s.lane l := rfl

theorem State.setRecord_record (h : Table.sorted s.ssu.records = true) (r : Nat) (x : SpliceRecord) :
    (s.setRecord r x).record r = x := by
  simp [State.setRecord, State.record, Table.get_set_same h]

theorem State.setRecord_record_other {r r' : Nat} (x : SpliceRecord) (h : r ≠ r') :
    (s.setRecord r x).record r' = s.record r' := by
  simp [State.setRecord, State.record, Table.get_set_other _ _ _ h]

theorem State.setLive_live (f : FeedId) (h : Table.sorted (s.map f).live = true) (e : Nat) (v : Live) :
    (s.setLive f e v).live f e = v := by
  simp [State.setLive, State.live, Table.get_set_same h]

theorem State.setLive_live_other (f : FeedId) {e e' : Nat} (v : Live) (h : e ≠ e') :
    (s.setLive f e v).live f e' = s.live f e' := by
  simp [State.setLive, State.live, Table.get_set_other _ _ _ h]

theorem State.setLive_live_feed {f f' : FeedId} (e e' : Nat) (v : Live) (h : f ≠ f') :
    (s.setLive f e v).live f' e' = s.live f' e' := by
  simp [State.setLive, State.live, State.setMap_map_other _ _ h]

/-- Live fields do not change what an entry is configured to carry. -/
@[simp] theorem State.setLive_entry (f f' : FeedId) (e e' : Nat) (v : Live) :
    (s.setLive f e v).entry f' e' = s.entry f' e' := by
  by_cases h : f = f'
  · subst h; simp only [State.setLive, State.entry, State.setMap_map]; cases hb : (s.map f).activeBank <;> simp [FeedMap.active, FeedMap.bank, hb]
  · simp [State.setLive, State.entry, State.setMap_map_other _ _ h]

@[simp] theorem State.placeResponse_reports (r : Response) : (s.placeResponse r).mlt.reports = s.mlt.reports := rfl

@[simp] theorem State.placeResponse_responses (r : Response) :
    (s.placeResponse r).mlt.responses = s.mlt.responses ++ [r] := rfl

end Sys2Proof.Machine
end

