-- ==== Sys2Proof/Laws/Frame.lean ====
section
/-! SUPPORT. What the operations of the CST, the STT, the SSU and the SMU, and the hand-overs to the MLT, can do: they move the
counters, the store, the maps, the schedule, the lanes that wait to move on and the report queue, leave everything else alone,
and keep the canonical forms and ranges. One lemma for each operation says so once. -/

namespace Sys2Proof.Machine

/-- All that an operation on the traffic of the part can do. -/
structure Moves (s t : State) : Prop where
  eq : t =
    { s with
      counters := t.counters, store := t.store, maps := t.maps, ssu := t.ssu, due := { s.due with walks := t.due.walks },
      mlt := { s.mlt with reports := t.mlt.reports, lostPending := t.mlt.lostPending, dropCount := t.mlt.dropCount } }
  wf : s.wf = true → t.wf = true
  counters : s.counters.inRange → t.counters.inRange
  reports : s.mlt.reportsInRange → t.mlt.reportsInRange

namespace Moves

theorem refl (s : State) : Moves s s := ⟨rfl, id, id, id⟩

theorem trans {s t u : State} (h : Moves s t) (h' : Moves t u) : Moves s u :=
  ⟨by rw [h'.eq, h.eq], fun x => h'.wf (h.wf x), fun x => h'.counters (h.counters x), fun x => h'.reports (h.reports x)⟩

theorem foldl {β : Type} (g : State → β → State) (hg : ∀ s b, Moves s (g s b)) (l : List β) (s : State) :
    Moves s (l.foldl g s) := by
  induction l generalizing s with
  | nil => exact refl s
  | cons b l ih => exact (hg s b).trans (ih _)

theorem tbu {s t : State} (h : Moves s t) : t.tbu = s.tbu := by rw [h.eq]
theorem ports {s t : State} (h : Moves s t) : t.ports = s.ports := by rw [h.eq]
theorem commits {s t : State} (h : Moves s t) : t.commits = s.commits := by rw [h.eq]
theorem heldCommits {s t : State} (h : Moves s t) : t.heldCommits = s.heldCommits := by rw [h.eq]
theorem feeds {s t : State} (h : Moves s t) : t.feeds = s.feeds := by rw [h.eq]
theorem mgmt {s t : State} (h : Moves s t) : t.mgmt = s.mgmt := by rw [h.eq]
theorem due {s t : State} (h : Moves s t) : t.due = { s.due with walks := t.due.walks } := by rw [h.eq]
theorem pending {s t : State} (h : Moves s t) : t.pending = s.pending := by rw [h.eq]
theorem responses {s t : State} (h : Moves s t) : t.mlt.responses = s.mlt.responses := by rw [h.eq]
theorem port {s t : State} (h : Moves s t) (p : PortId) : t.port p = s.port p := by simp [State.port, h.ports]
theorem feed {s t : State} (h : Moves s t) (f : FeedId) : t.feed f = s.feed f := by simp [State.feed, h.feeds]

end Moves

/-! ### Canonical form, part by part -/

theorem State.wf_iff (s : State) :
    s.wf = true ↔ s.store.wf = true ∧ (∀ f, (s.map f).wf = true) ∧ Table.wf SpliceRecord.blank s.ssu.records = true := by
  have h : (allFeeds.all (fun f => (s.map f).wf) = true) ↔ ∀ f, (s.map f).wf = true := by
    constructor
    · intro h f
      rw [List.all_eq_true] at h
      exact h f (by simp only [allFeeds]; revert f; decide)
    · intro h
      rw [List.all_eq_true]
      exact fun f _ => h f
  rw [State.wf, Bool.and_eq_true, Bool.and_eq_true, h, and_assoc]

theorem Store.wf_iff (st : Store) :
    st.wf = true ↔ Table.sorted st.cells = true ∧ Table.wf StreamRecord.unused st.streams = true := by
  rw [Store.wf, Bool.and_eq_true]

theorem FeedMap.wf_iff (m : FeedMap) :
    m.wf = true ↔ Table.wf MapEntry.unused m.bankA = true ∧ Table.wf MapEntry.unused m.bankB = true
      ∧ Table.wf Live.vacant m.live = true := by
  rw [FeedMap.wf, Bool.and_eq_true, Bool.and_eq_true, and_assoc]

/-! ### Writes of one part -/

/-- A new store in canonical form. -/
theorem moves_store (s : State) (st : Store) (h : s.store.wf = true → st.wf = true) : Moves s { s with store := st } :=
  ⟨rfl, fun x => by
    rw [State.wf_iff] at x ⊢
    exact ⟨h x.1, x.2⟩, id, id⟩

theorem moves_setMap (s : State) (f : FeedId) (m : FeedMap) (h : (s.map f).wf = true → m.wf = true) :
    Moves s (s.setMap f m) :=
  ⟨rfl, fun x => by
    rw [State.wf_iff] at x ⊢
    refine ⟨x.1, fun g => ?_, x.2.2⟩
    by_cases hg : f = g
    · subst hg; rw [State.setMap_map]; exact h (x.2.1 f)
    · rw [State.setMap_map_other s m hg]; exact x.2.1 g, id, id⟩

theorem moves_setLive (s : State) (f : FeedId) (e : Nat) (v : Live) : Moves s (s.setLive f e v) :=
  moves_setMap s f _ (fun x => by
    rw [FeedMap.wf_iff] at x ⊢
    exact ⟨x.1, x.2.1, Table.wf_set x.2.2 e v⟩)

theorem moves_setRecord (s : State) (r : Nat) (x : SpliceRecord) : Moves s (s.setRecord r x) :=
  ⟨rfl, fun h => by
    rw [State.wf_iff] at h ⊢
    exact ⟨h.1, h.2.1, Table.wf_set h.2.2 r x⟩, id, id⟩

theorem moves_setLane (s : State) (l : LaneId) (x : Lane) : Moves s (s.setLane l x) :=
  ⟨rfl, fun h => by
    rw [State.wf_iff] at h ⊢
    exact h, id, id⟩

theorem FeedMap.setBank_wf {m : FeedMap} (h : m.wf = true) (k : Bank) {t : List (Nat × MapEntry)}
    (ht : Table.wf MapEntry.unused t = true) : (m.setBank k t).wf = true := by
  rw [FeedMap.wf_iff] at h ⊢
  cases k
  · exact ⟨ht, h.2⟩
  · exact ⟨h.1, ht, h.2.2⟩

theorem FeedMap.bank_wf {m : FeedMap} (h : m.wf = true) (k : Bank) : Table.wf MapEntry.unused (m.bank k) = true := by
  rw [FeedMap.wf_iff] at h
  cases k
  · exact h.1
  · exact h.2.1

/-! ### Hand-overs to the MLT -/

theorem moves_handReport (s : State) (r : Report) : Moves s (s.handReport r) := by
  unfold State.handReport
  split
  · refine ⟨?_, id, id, fun h => ?_⟩
    · simp only [Mlt.enqueue]; split <;> rfl
    · simp only [Mlt.enqueue]
      split
      · refine ⟨?_, Nat.zero_le _⟩
        simp only [List.length_append, List.length_singleton, Config.reportPlaces] at *
        omega
      · exact ⟨h.1, Nat.min_le_right _ _⟩
  · exact Moves.refl s

theorem moves_count (s : State) (c : CounterId) (n : Nat) : Moves s (s.count c n) := by
  have base : ∀ marks : Vector Bool 81, Moves s
      { s with
        counters :=
          { live := upd s.counters.live c.index (min (s.counter c + n) Config.counterMax), held := s.counters.held,
            satMark := marks } } := fun marks =>
    ⟨rfl, id, fun h => ⟨fun i => by
        simp only [upd_get]
        split
        · exact Nat.min_le_right _ _
        · exact h.1 i, h.2⟩, id⟩
  unfold State.count
  simp only
  split
  · exact (base _).trans (moves_handReport _ _)
  · exact base _

/-! ### Cell store and stream table -/

theorem moves_setCongestion (s : State) (p : PortId) : Moves s (s.setCongestion p) := by
  unfold State.setCongestion
  split
  · exact Moves.refl s
  · exact (moves_store s _ (by simp only [Store.wf_iff]; exact id)).trans (moves_handReport _ _)

theorem moves_judgeCongestion (s : State) (p : PortId) : Moves s (s.judgeCongestion p) := by
  unfold State.judgeCongestion
  split
  · exact (moves_store s _ (by simp only [Store.wf_iff]; exact id)).trans (moves_handReport _ _)
  · exact Moves.refl s

theorem Store.setStream_wf {st : Store} (h : st.wf = true) (k : Nat) (r : StreamRecord) : (st.setStream k r).wf = true := by
  rw [Store.wf_iff] at h ⊢
  exact ⟨h.1, Table.wf_set h.2 k r⟩

theorem Store.free_wf {st : Store} (h : st.wf = true) (slot : Nat) (c : CellRecord) : (st.free slot c).wf = true := by
  apply Store.setStream_wf
  rw [Store.wf_iff] at h ⊢
  exact ⟨Table.sorted_erase h.1 slot, h.2⟩

theorem moves_release (s : State) (f : FeedId) (slot : Nat) : Moves s (s.release f slot) := by
  unfold State.release
  split
  · exact Moves.refl s
  · split
    · split
      · exact (moves_store s _ (fun h => Store.free_wf h _ _)).trans (moves_judgeCongestion _ _)
      · exact moves_store s _ (fun h => by
          rw [Store.wf_iff] at h ⊢
          exact ⟨Table.sorted_put h.1 _ _, h.2⟩)
    · exact Moves.refl s

theorem moves_releaseAll (s : State) (f : FeedId) (slots : List Nat) : Moves s (s.releaseAll f slots) :=
  Moves.foldl _ (fun s k => moves_release s f k) slots s

theorem moves_subscribe {s t : State} {f : FeedId} {src : Source} {w : Bool} (h : s.subscribe f src w = some t) :
    Moves s t := by
  unfold State.subscribe at h
  split at h
  · cases h; exact moves_store s _ (fun x => Store.setStream_wf x _ _)
  · split at h
    · cases h; exact moves_store s _ (fun x => Store.setStream_wf x _ _)
    · cases h

theorem moves_subscribeFound (s : State) (f : FeedId) (src : Source) (w : Bool) : Moves s (s.subscribeFound f src w) := by
  unfold State.subscribeFound
  cases h : s.subscribe f src w with
  | none => exact Moves.refl s
  | some t => exact moves_subscribe h

theorem Store.leave_wf {st : Store} (h : st.wf = true) (k : Nat) (f : FeedId) : (st.leave k f).wf = true := by
  unfold Store.leave
  simp only
  split <;> exact Store.setStream_wf h _ _

theorem moves_withdraw (s : State) (f : FeedId) (src : Source) : Moves s (s.withdraw f src) := by
  unfold State.withdraw
  split
  · split
    · exact (moves_releaseAll s f _).trans (moves_store _ _ (fun h => Store.leave_wf h _ _))
    · exact Moves.refl s
  · exact Moves.refl s

theorem moves_withdrawAll (s : State) (f : FeedId) : Moves s (s.withdrawAll f) :=
  Moves.foldl _ (fun s _ => moves_withdraw s f _) _ s

theorem moves_takeUp (s : State) (f : FeedId) (src : Source) (pre : Bool) : Moves s (s.takeUp f src pre) := by
  unfold State.takeUp
  split
  · exact moves_subscribeFound s f src false
  · simp only
    split
    · split
      · split
        · exact (moves_store s _ (fun x => Store.setStream_wf x _ _)).trans (moves_releaseAll _ _ _)
        · exact moves_store s _ (fun x => Store.setStream_wf x _ _)
      · exact Moves.refl s
    · exact moves_subscribeFound s f src false

theorem Store.foldl_wf {β : Type} (g : Store → β → Store) (hg : ∀ st b, st.wf = true → (g st b).wf = true) (l : List β)
    (st : Store) (h : st.wf = true) : (l.foldl g st).wf = true := by
  induction l generalizing st with
  | nil => exact h
  | cons b l ih => exact ih _ (hg st b h)

theorem Store.emptyStream_wf {st : Store} (h : st.wf = true) (k : Nat) : (st.emptyStream k).wf = true := by
  apply Store.setStream_wf
  apply Store.foldl_wf _ _ _ _ h
  intro st slot h
  split
  · exact Store.free_wf h _ _
  · exact h

theorem moves_purge (s : State) (p : PortId) : Moves s (s.purge p) :=
  (moves_store s _ (fun h => Store.foldl_wf _ (fun _ k h => Store.emptyStream_wf h k) _ _ h)).trans
    (moves_judgeCongestion _ p)

theorem moves_trimFeed (s : State) (f : FeedId) (src : Source) (tick : BitVec 32) (m : Nat) : Moves s (s.trimFeed f src tick m) :=
  moves_releaseAll s f _

theorem moves_trimWaiting (s : State) (k : Nat) (tick : BitVec 32) : Moves s (s.trimWaiting k tick) :=
  Moves.foldl _ (fun s f => moves_trimFeed s f _ tick _) _ s

theorem moves_judgeContinuity (s : State) (p : PortId) (k : Nat) (c : BitVec 4) : Moves s (s.judgeContinuity p k c) := by
  unfold State.judgeContinuity
  have h := moves_store s (s.store.setStream k { s.store.stream k with nextCont := some (c + 1) })
    (fun x => Store.setStream_wf x _ _)
  simp only
  split
  · exact h.trans (moves_count _ _ _)
  · exact h

theorem moves_overflow (s : State) (p : PortId) (k : Nat) (c : BitVec 4) : Moves s (s.overflow p k c) :=
  ((moves_store s _ (fun x => Store.setStream_wf x _ _)).trans (moves_count _ _ _)).trans (moves_setCongestion _ _)

theorem Store.put_wf {st : Store} (h : st.wf = true) (slot : Nat) (pool : FreePool) (k : Nat) (p : PortId) (hdr : Header)
    (payload : List Byte) (tick : BitVec 32) : (st.put slot pool k p hdr payload tick).wf = true := by
  apply Store.setStream_wf
  rw [Store.wf_iff] at h ⊢
  refine ⟨Table.sorted_put ?_ _ _, h.2⟩
  split
  · split
    · exact Table.sorted_put h.1 _ _
    · exact h.1
  · exact h.1

theorem moves_offerCell (s : State) (p : PortId) (hdr : Header) (payload : List Byte) : Moves s (s.offerCell p hdr payload) := by
  unfold State.offerCell
  split
  · exact Moves.refl s
  · split
    · exact moves_overflow _ _ _ _
    · split
      · exact (((moves_store s _ (fun h => Store.put_wf h _ _ _ _ _ _ _)).trans (moves_judgeContinuity _ _ _ _)).trans
          (moves_judgeCongestion _ _)).trans (moves_trimWaiting _ _ _)
      · exact moves_overflow _ _ _ _

/-! ### Splice schedule -/

theorem moves_endNeed (s : State) (f : FeedId) (src : Source) (rd : Bool) : Moves s (s.endNeed f src rd) := by
  unfold State.endNeed
  split
  · exact Moves.refl s
  · split
    · split
      · exact (moves_withdraw s f src).trans (moves_subscribeFound _ f src true)
      · exact Moves.refl s
    · exact moves_withdraw s f src

theorem moves_endNeedOf (s : State) (f : FeedId) (src : Option Source) (rd : Bool) : Moves s (s.endNeedOf f src rd) := by
  cases src with
  | none => exact Moves.refl s
  | some x => exact moves_endNeed s f x rd

theorem moves_endMarks (s : State) (r : SpliceRecord) (fs : List FeedId) : Moves s (s.endMarks r fs) :=
  Moves.foldl _ (fun s f => moves_endNeed s f _ false) _ s

theorem moves_noticeFeed (s : State) (src : Source) (f : FeedId) : Moves s (s.noticeFeed src f).1 := by
  unfold State.noticeFeed
  split
  · cases h : s.subscribe f src true with
    | none => exact Moves.refl s
    | some t => exact moves_subscribe h
  · exact Moves.refl s

theorem moves_noticeFeeds (src : Source) (l : List FeedId) (s : State) : Moves s (s.noticeFeeds src l).1 := by
  induction l generalizing s with
  | nil => exact Moves.refl s
  | cons f l ih => exact (moves_noticeFeed s src f).trans (ih _)

theorem moves_giveNotice (s : State) (l : LaneId) (r : Nat) : Moves s (s.giveNotice l r) := by
  have h := (moves_setRecord s r { s.record r with status := .noticed }).trans
    (moves_handReport _ (.spliceNotice l r (s.record r).dueCycle))
  unfold State.giveNotice
  simp only
  split
  · exact (h.trans (moves_noticeFeeds _ _ _)).trans (moves_setRecord _ _ _)
  · exact h

theorem moves_beginSplice (s : State) (l : LaneId) (r : Nat) (x : SpliceRecord) (f : FeedId) (e : Nat) :
    Moves s (s.beginSplice l r x f e) := by
  unfold State.beginSplice
  simp only
  split
  · exact moves_setLive _ _ _ _
  · exact (moves_setLive _ _ _ _).trans (moves_subscribeFound _ _ _ _)

theorem moves_setShare (s : State) (f : FeedId) (e : Nat) (t : Tag) (share : Nat) : Moves s (s.setShare f e t share) := by
  have wa : ∀ {m : FeedMap}, m.wf = true → ∀ (k : Bank) (j : Nat) (x : MapEntry),
      (m.setBank k (setBankEntry (m.bank k) j x)).wf = true := fun h k j x =>
    FeedMap.setBank_wf h k (Table.wf_set (FeedMap.bank_wf h k) j x)
  unfold State.setShare
  simp only
  split
  · split
    · exact moves_setMap _ _ _ (fun h => wa h _ _ _)
    · refine moves_setMap _ _ _ (fun h => FeedMap.setBank_wf (wa h _ _ _) _ (Table.wf_set (FeedMap.bank_wf (wa h _ _ _) _) _ _))
  · exact moves_setMap _ _ _ (fun h => wa h _ _ _)

theorem moves_armEffect (s : State) (l : LaneId) (r : Nat) (x : SpliceRecord) (f : FeedId) (o : SpliceResult) :
    Moves s (s.armEffect l r x f o) := by
  unfold State.armEffect
  split
  · split
    · exact moves_beginSplice _ _ _ _ _ _
    · split
      · exact moves_setShare _ _ _ _ _
      · exact Moves.refl s
  · exact Moves.refl s

theorem moves_armFeed (s : State) (l : LaneId) (r : Nat) (f : FeedId) : Moves s (s.armFeed l r f) :=
  (moves_armEffect s l r _ f _).trans (moves_setRecord _ _ _)

theorem moves_arm (s : State) (l : LaneId) (r : Nat) : Moves s (s.arm l r) :=
  ((Moves.foldl _ (fun s f => moves_armFeed s l r f) _ s).trans (moves_endMarks _ _ _)).trans (moves_setRecord _ _ _)

theorem moves_faultLane (s : State) (l : LaneId) (r : Nat) (c : LaneCause) : Moves s (s.faultLane l r c) :=
  (moves_setLane s l _).trans (moves_handReport _ _)

theorem moves_leaveRecord (s : State) (l : LaneId) (r : Nat) : Moves s (s.leaveRecord l r).1 := by
  unfold State.leaveRecord
  simp only
  split
  · split
    · exact moves_faultLane _ _ _ _
    · exact moves_setLane _ _ _
  · exact moves_setLane _ _ _

theorem moves_expireRecord (s : State) (l : LaneId) (r : Nat) : Moves s (s.expireRecord l r).1 :=
  (((moves_setRecord s r _).trans (moves_endMarks _ _ _)).trans (moves_handReport _ _)).trans (moves_leaveRecord _ _ _)

theorem moves_armRecord (s : State) (l : LaneId) (r : Nat) : Moves s (s.armRecord l r).1 := by
  unfold State.armRecord
  simp only
  split
  · exact (moves_arm s l r).trans (moves_setLane _ _ _)
  · exact ((moves_arm s l r).trans (moves_handReport _ _)).trans (moves_leaveRecord _ _ _)

theorem moves_evaluateRecord (s : State) (l : LaneId) (r : Nat) : Moves s (s.evaluateRecord l r).1 := by
  have h := moves_setRecord s r { s.record r with status := .pending, outcomes := [], marks := [] }
  unfold State.evaluateRecord
  simp only
  split
  · exact h.trans (moves_expireRecord _ _ _)
  · split
    · exact h.trans (moves_armRecord _ _ _)
    · split
      · exact (h.trans (moves_giveNotice _ _ _)).trans (moves_setLane _ _ _)
      · exact h.trans (moves_setLane _ _ _)

theorem moves_reachRecord (s : State) (l : LaneId) (r : Nat) : Moves s (s.reachRecord l r).1 := by
  have h := moves_setLane s l { s.lane l with curRec := r }
  unfold State.reachRecord
  simp only
  split
  · split
    · exact h.trans (moves_leaveRecord _ _ _)
    · exact h.trans (moves_setLane _ _ _)
  · split
    · exact h.trans (moves_faultLane _ _ _ _)
    · exact h.trans (moves_evaluateRecord _ _ _)

theorem moves_walk (n : Nat) (l : LaneId) (r : Nat) (s : State) : Moves s (State.walk n l r s) := by
  induction n generalizing r s with
  | zero => exact Moves.refl s
  | succ n ih =>
    have h := moves_reachRecord s l r
    simp only [State.walk]
    split
    · next t next ht => rw [ht] at h; exact h.trans (ih _ _)
    · next t ht => rw [ht] at h; exact h

theorem moves_reach (s : State) (l : LaneId) (r : Nat) : Moves s (s.reach l r) := moves_walk _ l r s

theorem moves_walkOn {s : State} (l : LaneId) (a : State × Option Nat) (h : Moves s a.1) : Moves s (State.walkOn l a) := by
  unfold State.walkOn
  split
  · exact h.trans (moves_reach _ _ _)
  · exact h

theorem moves_evaluateLane (s : State) (l : LaneId) : Moves s (s.evaluateLane l) := by
  unfold State.evaluateLane
  simp only
  split
  · exact moves_reach _ _ _
  · split
    · exact moves_walkOn l _ (moves_expireRecord s l _)
    · split
      · exact moves_walkOn l _ (moves_armRecord s l _)
      · exact Moves.refl s
  · exact Moves.refl s

/-- Lanes wait to move on. -/
theorem moves_walks (s : State) (l : List LaneId) : Moves s { s with due := { s.due with walks := l } } := ⟨rfl, id, id, id⟩

theorem moves_leaveCompleted (s : State) (l : LaneId) (r : Nat) : Moves s (s.leaveCompleted l r) := by
  have h := moves_handReport s (.spliceOutcome l r .complete (s.record r).outcomes)
  unfold State.leaveCompleted
  simp only
  split
  · exact h.trans (moves_walks _ _)
  · exact h.trans (moves_setLane _ _ _)

theorem moves_setOutcomes (s : State) (r : Nat) (os : List (FeedId × SpliceResult)) : Moves s (s.setOutcomes r os) := by
  unfold State.setOutcomes
  simp only
  split
  · split
    · exact (moves_setRecord _ _ _).trans (moves_leaveCompleted _ _ _)
    · exact moves_setRecord _ _ _
  · exact moves_setRecord _ _ _

theorem moves_enterOutcome (s : State) (r : Nat) (f : FeedId) (o : SpliceResult) : Moves s (s.enterOutcome r f o) := by
  unfold State.enterOutcome
  split
  · exact moves_setOutcomes _ _ _
  · exact Moves.refl s

theorem moves_endSplice (s : State) (f : FeedId) (e : Nat) (v : Live) (o : SpliceResult) (rev : RevertResult) :
    Moves s (s.endSplice f e v o rev) := by
  unfold State.endSplice
  split
  · exact moves_enterOutcome _ _ _ _
  · exact moves_handReport _ _
  · exact Moves.refl s

theorem moves_walkFrom (s : State) (l : LaneId) : Moves s (s.walkFrom l) := (moves_setLane s l _).trans (moves_reach _ _ _)

theorem moves_walkLanes (s : State) : Moves s s.walkLanes := (moves_walks s []).trans (Moves.foldl _ moves_walkFrom _ _)

theorem moves_stopRecord (f : FeedId) (s : State) (r : Nat) : Moves s (State.stopRecord f s r) := by
  unfold State.stopRecord
  simp only
  split
  · split
    · exact moves_setRecord _ _ _
    · exact moves_setOutcomes _ _ _
    · exact Moves.refl s
  · exact Moves.refl s

theorem moves_feedStop (s : State) (f : FeedId) : Moves s (s.feedStop f) := Moves.foldl _ (moves_stopRecord f) _ s

/-! ### Source protection, splices and reverts -/

theorem moves_restEntries (s : State) (f : FeedId) : Moves s (s.restEntries f) :=
  Moves.foldl _ (fun s e => moves_setLive s f e _) _ s

theorem moves_takeFallback (s : State) (f : FeedId) (e : Nat) (lost : Source) : Moves s (s.takeFallback f e lost) := by
  unfold State.takeFallback
  split
  · exact Moves.refl s
  · exact (((moves_setLive s f e _).trans (moves_endNeed _ _ _ _)).trans (moves_subscribeFound _ _ _ _)).trans
      (moves_handReport _ _)

theorem moves_reportBlocked (s : State) (f : FeedId) (e : Nat) (lost : Source) (w : BlockReason) :
    Moves s (s.reportBlocked f e lost w) := moves_handReport _ _

theorem moves_failOnAir (s : State) (f : FeedId) (e : Nat) (lost : Source) : Moves s (s.failOnAir f e lost) := by
  unfold State.failOnAir
  split
  · exact moves_takeFallback _ _ _ _
  · exact moves_reportBlocked _ _ _ _ _

theorem moves_loseNewSource (s : State) (f : FeedId) (e : Nat) : Moves s (s.loseNewSource f e) := by
  unfold State.loseNewSource
  simp only
  split
  · exact Moves.refl s
  · have h := (moves_endSplice s f e (s.live f e) .absent .absent).trans
      (moves_setLive _ f e (s.live f e).clearSplice)
    split
    · exact h.trans (moves_takeFallback _ _ _ _)
    · exact (h.trans (moves_setLive _ _ _ _)).trans (moves_reportBlocked _ _ _ _ _)

theorem moves_takeOutPoint (s : State) (f : FeedId) (e : Nat) : Moves s (s.takeOutPoint f e) := by
  unfold State.takeOutPoint
  simp only
  split
  · exact Moves.refl s
  · exact ((moves_setLive s f e _).trans (moves_endNeedOf _ _ _ _)).trans (moves_takeUp _ _ _ _)

theorem moves_outPoint (s : State) (f : FeedId) (e : Nat) : Moves s (s.outPoint f e) := by
  have h := moves_takeOutPoint s f e
  unfold State.outPoint
  simp only
  split
  · exact Moves.refl s
  · split
    · exact h
    · exact h.trans (moves_loseNewSource _ _ _)

theorem moves_inPoint (s : State) (f : FeedId) (e : Nat) : Moves s (s.inPoint f e) :=
  (moves_endSplice s f e _ _ _).trans (moves_setLive _ _ _ _)

theorem moves_forceExpiry (s : State) (f : FeedId) (e : Nat) : Moves s (s.forceExpiry f e) := by
  have h := moves_endSplice s f e (s.live f e) .forced .forced
  unfold State.forceExpiry
  simp only
  split
  · exact ((h.trans (moves_setLive _ _ _ _)).trans (moves_endNeedOf _ _ _ _)).trans (moves_takeUp _ _ _ _)
  · exact h.trans (moves_setLive _ _ _ _)

theorem moves_cancelExpiry (s : State) (f : FeedId) (e : Nat) : Moves s (s.cancelExpiry f e) := by
  unfold State.cancelExpiry
  simp only
  split
  · exact ((moves_endSplice s f e _ _ _).trans (moves_setLive _ _ _ _)).trans (moves_endNeedOf _ _ _ _)
  · split
    · exact moves_forceExpiry _ _ _
    · split
      · exact moves_forceExpiry _ _ _
      · next h =>
        exact (((moves_subscribe h).trans (moves_endSplice _ _ _ _ _ _)).trans (moves_setLive _ _ _ _)).trans
          (moves_endNeedOf _ _ _ _)
  · exact Moves.refl s

theorem moves_expireWindow (s : State) (f : FeedId) (e : Nat) : Moves s (s.expireWindow f e) := by
  unfold State.expireWindow
  split
  · exact moves_forceExpiry _ _ _
  · exact moves_cancelExpiry _ _ _
  · exact Moves.refl s

theorem moves_revertAbsent (s : State) (f : FeedId) (e : Nat) : Moves s (s.revertAbsent f e) :=
  ((moves_setLive s f e _).trans (moves_endNeedOf _ _ _ _)).trans (moves_handReport _ _)

theorem moves_failFallback (s : State) (f : FeedId) (e : Nat) (p : PortId) : Moves s (s.failFallback f e p) := by
  have h : Moves s (if (s.live f e).protSrc.any (fun x => x.port = p) then
      s.setLive f e { s.live f e with revertLeft := none } else s) := by
    split
    · exact moves_setLive _ _ _ _
    · exact Moves.refl s
  unfold State.failFallback
  simp only
  split
  · split
    · exact h.trans (moves_reportBlocked _ _ _ _ _)
    · exact h
  · exact h

theorem moves_failOutWait (s : State) (f : FeedId) (e : Nat) (p : PortId) : Moves s (s.failOutWait f e p) := by
  unfold State.failOutWait
  simp only
  split
  · exact moves_outPoint _ _ _
  · split
    · exact moves_revertAbsent _ _ _
    · exact Moves.refl s

theorem moves_failEntry (p : PortId) (f : FeedId) (s : State) (e : Nat) : Moves s (State.failEntry p f s e) := by
  unfold State.failEntry
  simp only
  split
  · split
    · split
      · exact moves_failOnAir _ _ _ _
      · exact Moves.refl s
    · exact Moves.refl s
  · exact moves_failFallback _ _ _ _
  · exact moves_failOutWait _ _ _ _
  · split
    · exact moves_loseNewSource _ _ _
    · exact Moves.refl s
  · exact Moves.refl s

theorem moves_returnEntry (p : PortId) (f : FeedId) (s : State) (e : Nat) : Moves s (State.returnEntry p f s e) := by
  unfold State.returnEntry
  simp only
  split
  · exact moves_setLive _ _ _ _
  · exact Moves.refl s

theorem moves_overRunning (g : FeedId → State → Nat → State) (hg : ∀ f s e, Moves s (g f s e)) (s : State) :
    Moves s (s.overRunning g) := by
  apply Moves.foldl
  intro s f
  split
  · exact Moves.foldl _ (hg f) _ s
  · exact Moves.refl s

theorem moves_portFailed (s : State) (p : PortId) : Moves s (s.portFailed p) :=
  (moves_overRunning _ (moves_failEntry p) s).trans (moves_walkLanes _)

theorem moves_portReturned (s : State) (p : PortId) : Moves s (s.portReturned p) :=
  moves_overRunning _ (moves_returnEntry p) s

theorem moves_handPortChange (s : State) (p : PortId) (old : PortState) : Moves s (s.handPortChange p old) := by
  have h := moves_handReport s (.portState p old (s.port p).state)
  unfold State.handPortChange
  simp only
  split
  · exact h.trans (moves_portFailed _ _)
  · split
    · exact h.trans (moves_portReturned _ _)
    · exact h

theorem moves_startRevert (s : State) (f : FeedId) (e : Nat) (prot : Source) : Moves s (s.startRevert f e prot) :=
  (moves_setLive s f e _).trans (moves_subscribeFound _ _ _ _)

theorem moves_tryRevert (s : State) (f : FeedId) (e : Nat) : Moves s (s.tryRevert f e) := by
  unfold State.tryRevert
  split
  · split
    · exact moves_startRevert _ _ _ _
    · exact Moves.refl s
  · exact Moves.refl s

theorem moves_countRevert (s : State) (f : FeedId) (e : Nat) : Moves s (s.countRevert f e) := by
  unfold State.countRevert
  simp only
  split
  · split
    · exact (moves_setLive _ _ _ _).trans (moves_tryRevert _ _ _)
    · exact moves_setLive _ _ _ _
  · exact Moves.refl s

/-! ### Head evaluation of the feed composers -/

theorem moves_dropStale (s : State) (f : FeedId) (k : Nat) : Moves s (s.dropStale f k) := by
  unfold State.dropStale
  split
  · exact (moves_release _ _ _).trans (moves_count _ _ _)
  · exact Moves.refl s

theorem moves_dropStaleRun (f : FeedId) (tick : BitVec 32) (l : List Nat) (s : State) :
    Moves s (State.dropStaleRun f tick l s) := by
  induction l generalizing s with
  | nil => exact Moves.refl s
  | cons k l ih =>
    simp only [State.dropStaleRun]
    split
    · exact (moves_dropStale _ _ _).trans (ih _)
    · exact Moves.refl s

theorem moves_freshen (s : State) (f : FeedId) (e : Nat) (tick : BitVec 32) : Moves s (s.freshen f e tick) :=
  moves_dropStaleRun f tick _ s

theorem moves_seekRun (f : FeedId) (tick : BitVec 32) (l : List Nat) (s : State) :
    Moves s (State.seekRun f tick l s).1 := by
  induction l generalizing s with
  | nil => exact Moves.refl s
  | cons k l ih =>
    simp only [State.seekRun]
    split
    · exact (moves_dropStale _ _ _).trans (ih _)
    · split
      · exact Moves.refl s
      · exact (moves_release _ _ _).trans (ih _)

theorem moves_evaluateInWait (s : State) (f : FeedId) (e : Nat) (tick : BitVec 32) : Moves s (s.evaluateInWait f e tick) := by
  have h := moves_seekRun f tick (s.cellsOf f e) s
  unfold State.evaluateInWait
  simp only
  split
  · exact h.trans (moves_inPoint _ _ _)
  · exact h

theorem moves_evaluateHead (tick : BitVec 32) (f : FeedId) (s : State) (e : Nat) : Moves s (State.evaluateHead tick f s e) := by
  unfold State.evaluateHead
  split
  · exact Moves.refl s
  · exact moves_freshen _ _ _ _
  · exact moves_freshen _ _ _ _
  · exact moves_evaluateInWait _ _ _ _
  · have h := moves_freshen s f e tick
    simp only
    split
    · have h' := h.trans (moves_outPoint _ f e)
      split
      · exact h'.trans (moves_evaluateInWait _ _ _ _)
      · exact h'.trans (moves_freshen _ _ _ _)
    · exact h

theorem moves_accrue (f : FeedId) (s : State) (e : Nat) : Moves s (State.accrue f s e) := moves_setLive _ _ _ _

theorem moves_subscribeEntries (s : State) (f : FeedId) : Moves s (s.subscribeEntries f) :=
  Moves.foldl _ (fun s src => moves_subscribeFound s f src false) _ s

end Sys2Proof.Machine
end

