-- ==== Sys2Proof/Laws/Acts.lean ====
section
/-! SUPPORT. What the parties of a boundary can do: feed composers, windows, countdowns, lanes and commits. Beyond what Moves
allows they change the composers, the commit table with its responses, and what is still due; the TBU, the ports, the management
state and the MLT's settings stay. -/

namespace Sys2Proof.Machine

/-- All that a party of a boundary can do. -/
structure Acts (s t : State) : Prop where
  eq : t =
    { s with
      counters := t.counters, store := t.store, maps := t.maps, ssu := t.ssu, feeds := t.feeds, commits := t.commits,
      heldCommits := t.heldCommits, due := t.due,
      mlt :=
        { s.mlt with
          responses := t.mlt.responses, reports := t.mlt.reports, lostPending := t.mlt.lostPending,
          dropCount := t.mlt.dropCount } }
  wf : s.wf = true → t.wf = true
  counters : s.counters.inRange → t.counters.inRange
  reports : s.mlt.reportsInRange → t.mlt.reportsInRange
  responses : s.mlt.responses.length ≤ 16 → t.mlt.responses.length ≤ 16

theorem Moves.acts {s t : State} (h : Moves s t) : Acts s t := by
  refine ⟨?_, h.wf, h.counters, h.reports, fun x => by rw [h.responses]; exact x⟩
  obtain ⟨h, -, -, -⟩ := h
  rw [h]

namespace Acts

theorem refl (s : State) : Acts s s := (Moves.refl s).acts

theorem trans {s t u : State} (h : Acts s t) (h' : Acts t u) : Acts s u :=
  ⟨by rw [h'.eq, h.eq], fun x => h'.wf (h.wf x), fun x => h'.counters (h.counters x), fun x => h'.reports (h.reports x),
    fun x => h'.responses (h.responses x)⟩

theorem foldl {β : Type} (g : State → β → State) (hg : ∀ s b, Acts s (g s b)) (l : List β) (s : State) :
    Acts s (l.foldl g s) := by
  induction l generalizing s with
  | nil => exact refl s
  | cons b l ih => exact (hg s b).trans (ih _)

theorem tbu {s t : State} (h : Acts s t) : t.tbu = s.tbu := by rw [h.eq]
theorem ports {s t : State} (h : Acts s t) : t.ports = s.ports := by rw [h.eq]
theorem mgmt {s t : State} (h : Acts s t) : t.mgmt = s.mgmt := by rw [h.eq]
theorem pending {s t : State} (h : Acts s t) : t.pending = s.pending := by rw [h.eq]
theorem port {s t : State} (h : Acts s t) (p : PortId) : t.port p = s.port p := by simp [State.port, h.ports]

end Acts

/-! ### Writes of one part -/

theorem acts_setFeed (s : State) (f : FeedId) (x : Feed) : Acts s (s.setFeed f x) := ⟨rfl, id, id, id, id⟩

theorem acts_due (s : State) (d : Due) : Acts s { s with due := d } := ⟨rfl, id, id, id, id⟩

theorem acts_commits (s : State) (l : List Commit) : Acts s { s with commits := l } := ⟨rfl, id, id, id, id⟩

theorem acts_handCommitResponse (s : State) (r : Response) : Acts s (s.handCommitResponse r) := by
  unfold State.handCommitResponse
  split
  · next h =>
    refine ⟨rfl, id, id, id, fun _ => ?_⟩
    have : s.mlt.responses.length < 16 := of_decide_eq_true h.2
    simp only [State.placeResponse_responses, List.length_append, List.length_singleton]
    omega
  · exact ⟨rfl, id, id, id, id⟩

/-! ### Feed composers -/

theorem acts_sendFill (s : State) (f : FeedId) : Acts s (s.sendFill f) :=
  (acts_setFeed s f _).trans (moves_count _ _ _).acts

theorem acts_sendEntry (s : State) (f : FeedId) (e k : Nat) (c : CellRecord) (tick : BitVec 32) :
    Acts s (s.sendEntry f e k c tick) := by
  have h : Acts s ((s.emit f (some (s.departCell f e c tick))).setLive f e
      { s.live f e with
        credit := (s.live f e).credit - s.unitCost, outCont := (s.live f e).outCont + 1,
        discPending := (s.live f e).discPending && !c.hdr.marked }) :=
    (acts_setFeed s f _).trans (moves_setLive _ _ _ _).acts
  unfold State.sendEntry
  simp only
  split
  · exact (h.trans (moves_count _ _ _).acts).trans (moves_release _ _ _).acts
  · exact h.trans (moves_release _ _ _).acts

theorem acts_sendSelected (s : State) (f : FeedId) (tick : BitVec 32) : Acts s (s.sendSelected f tick) := by
  unfold State.sendSelected
  split
  · exact acts_sendFill _ _
  · split
    · exact acts_sendFill _ _
    · split
      · exact acts_sendFill _ _
      · exact acts_sendEntry _ _ _ _ _ _

theorem acts_depart (s : State) (f : FeedId) : Acts s (s.depart f) :=
  (((Moves.foldl _ (moves_accrue f) _ s).acts.trans (Moves.foldl _ (moves_evaluateHead _ f) _ _).acts).trans
    (acts_sendSelected _ _ _)).trans (moves_walkLanes _).acts

theorem acts_sendPattern (s : State) (f : FeedId) : Acts s (s.sendPattern f) := acts_setFeed s f _

theorem acts_becomeRunning (s : State) (f : FeedId) : Acts s (s.becomeRunning f) := acts_setFeed s f _

theorem acts_enableFeed (s : State) (f : FeedId) : Acts s (s.enableFeed f) :=
  (acts_setFeed s f _).trans (moves_subscribeEntries _ _).acts

theorem acts_leaveTest (s : State) (f : FeedId) : Acts s (s.leaveTest f) :=
  (acts_setFeed s f _).trans (moves_subscribeEntries _ _).acts

theorem acts_enterTest (s : State) (f : FeedId) : Acts s (s.enterTest f) := by
  have h : Moves s (if s.feedNeeds f then (s.feedStop f).withdrawAll f else s) := by
    split
    · exact (moves_feedStop _ _).trans (moves_withdrawAll _ _)
    · exact Moves.refl s
  exact ((((h.trans (moves_restEntries _ _)).acts).trans (acts_setFeed _ _ _)).trans (acts_due _ _)).trans (moves_walkLanes _).acts

/-! ### Commits -/

theorem moves_unlockAll (s : State) (fs : FeedSet) : Moves s (s.unlockAll fs) :=
  Moves.foldl _ (fun s f => moves_setMap s f { s.map f with locked := false } id) _ s

theorem acts_endCommit (s : State) (c : Commit) (res : Result) (l : List Byte) : Acts s (s.endCommit c res l) :=
  ((acts_commits s _).trans (moves_unlockAll _ _).acts).trans (acts_handCommitResponse _ _)

theorem acts_disableFeed (s : State) (f : FeedId) : Acts s (s.disableFeed f) := by
  have h := (((acts_setFeed s f { s.feed f with state := .disabled, pendMode := .none, injectPending := false }).trans
    (moves_feedStop _ f).acts).trans (moves_withdrawAll _ f).acts).trans (moves_restEntries _ f).acts
  unfold State.disableFeed
  simp only
  split
  · exact ((h.trans (acts_endCommit _ _ _ _)).trans (acts_due _ _)).trans (moves_walkLanes _).acts
  · exact (h.trans (acts_due _ _)).trans (moves_walkLanes _).acts

theorem acts_swapFeed (s : State) (f : FeedId) : Acts s (s.swapFeed f) := by
  refine Acts.trans (Moves.acts (moves_setMap s f _ (fun h => ?_))) (acts_due _ _)
  rw [FeedMap.wf_iff] at h ⊢
  refine ⟨h.1, h.2.1, ?_⟩
  have : ∀ (l : List Nat) (t : List (Nat × Live)), Table.wf Live.vacant t = true →
      Table.wf Live.vacant (l.foldl (fun t e => Table.set Live.vacant t e (s.carried f (bankEntry (s.map f).shadow e))) t)
        = true := by
    intro l
    induction l with
    | nil => exact fun t h => h
    | cons e l ih => exact fun t h => ih _ (Table.wf_set h _ _)
  exact this _ [] rfl

theorem moves_swapSubscribes (old new t : State) (f : FeedId) : Moves t (State.swapSubscribes old new t f) := by
  unfold State.swapSubscribes
  split
  · exact ((Moves.foldl _ (fun t src => moves_takeUp t f src false) _ t).trans
      (Moves.foldl _ (fun t src => moves_subscribeFound t f src false) _ _)).trans
      (Moves.foldl _ (fun t src => moves_subscribeFound t f src true) _ _)
  · exact Moves.refl t

theorem moves_refresh (s : State) (f : FeedId) : Moves s (s.refresh f) := by
  refine moves_setMap s f _ (fun h => ?_)
  have := FeedMap.setBank_wf h (s.map f).activeBank.other (FeedMap.bank_wf h (s.map f).activeBank)
  rw [FeedMap.wf_iff] at this ⊢
  exact this

theorem acts_swap (s : State) (fs : FeedSet) : Acts s (s.swap fs) := by
  have hw : ∀ (new : State) (l : List FeedId) (t : State),
      Moves t (l.foldl (fun t f => (State.swapWithdraws s new f).foldl (fun t src => t.withdraw f src) t) t) := fun new l t =>
    Moves.foldl _ (fun t f => Moves.foldl _ (fun t src => moves_withdraw t f src) _ t) l t
  have hs : ∀ (new : State) (l : List FeedId) (t : State), Moves t (l.foldl (State.swapSubscribes s new) t) :=
    fun new l t => Moves.foldl _ (fun t f => moves_swapSubscribes s new t f) l t
  exact (((Acts.foldl _ acts_swapFeed (feedList fs) s).trans (hw _ _ _).acts).trans (hs _ _ _).acts).trans
    (Moves.foldl _ moves_refresh _ _).acts

theorem acts_trySwap (s : State) (c : Commit) : Acts s (s.trySwap c) := by
  unfold State.trySwap
  split
  · exact acts_endCommit _ _ _ _
  · exact (acts_swap _ _).trans (acts_endCommit _ _ _ _)

theorem acts_considerCommit (s : State) (c : Commit) : Acts s (s.considerCommit c) := by
  unfold State.considerCommit
  simp only
  split
  · exact (acts_commits s _).trans (acts_trySwap _ _)
  · split
    · exact (acts_commits s _).trans (acts_endCommit _ _ _ _)
    · exact acts_commits s _

/-! ### Parts of a boundary -/

theorem acts_changeAtCycle (s : State) (f : FeedId) : Acts s (s.changeAtCycle f) := by
  unfold State.changeAtCycle
  split
  · simp only
    split
    · exact (acts_due s _).trans (acts_becomeRunning _ _)
    · split
      · exact (acts_due s _).trans (acts_leaveTest _ _)
      · exact acts_due s _
    · exact acts_due s _
  · exact Acts.refl s

theorem acts_windowPart (s : State) (f : FeedId) (e : Nat) : Acts s (s.windowPart f e) := by
  unfold State.windowPart
  split
  · exact ((moves_expireWindow _ _ _).trans (moves_walkLanes _)).acts
  · exact Acts.refl s

theorem acts_revertPart (s : State) (f : FeedId) (e : Nat) : Acts s (s.revertPart f e) := by
  unfold State.revertPart
  split
  · exact (acts_due s _).trans (moves_countRevert _ _ _).acts
  · exact Acts.refl s

theorem acts_lanePart (s : State) (l : LaneId) : Acts s (s.lanePart l) := by
  unfold State.lanePart
  split
  · exact (acts_due s _).trans (moves_evaluateLane _ _).acts
  · exact Acts.refl s

theorem acts_commitPart (s : State) (f : FeedId) : Acts s (s.commitPart f) := by
  unfold State.commitPart
  split
  · split
    · exact acts_considerCommit _ _
    · exact Acts.refl s
  · exact Acts.refl s

theorem acts_cyclePart (s : State) (p : CyclePart) : Acts s (s.cyclePart p) := by
  cases p with
  | feed f => exact acts_changeAtCycle s f
  | window f e => exact acts_windowPart s f e
  | revert f e => exact acts_revertPart s f e
  | lane l => exact acts_lanePart s l
  | commit f => exact acts_commitPart s f

theorem acts_cycleParts (s : State) (l : List CyclePart) : Acts s (s.cycleParts l) := Acts.foldl _ acts_cyclePart l s

theorem acts_closeCycle (s : State) (p : Pace) : Acts s (s.closeCycle p) := by
  cases p
  · exact acts_cycleParts _ _
  · exact Acts.refl s

theorem acts_slotOfFeed (s : State) (f : FeedId) : Acts s (s.slotOfFeed f) := by
  have h : Acts s (if (s.feed f).pendMode = .test then s.enterTest f else s.changeAtCycle f) := by
    split
    · exact acts_enterTest _ _
    · exact acts_changeAtCycle _ _
  unfold State.slotOfFeed
  simp only
  split
  · exact h.trans (acts_depart _ _)
  · exact h.trans (acts_sendPattern _ _)
  · exact h.trans (acts_setFeed _ _ _)

theorem acts_slotPartFeed (s : State) (f : FeedId) : Acts s (s.slotPartFeed f) := by
  unfold State.slotPartFeed
  split
  · exact (acts_due s _).trans (acts_slotOfFeed _ _)
  · exact Acts.refl s

end Sys2Proof.Machine
end

