-- ==== Sys2Proof/Laws/Requests.lean ====
section
/-! SUPPORT. The path of a request, said once: what a request command does by the standing of REX and the intake queue (R148,
R149), and what serving a request leaves in the response queue (R150). -/

namespace Sys2Proof.Machine

/-- A request command hands its request to the CRX. -/
theorem exec_takenBy {c : Instr} {q : Taken} (h : takenBy c = some q) (s : State) : exec c s = .next (s.send q) := by
  cases c <;> simp only [takenBy, Option.some.injEq, reduceCtorEq] at h <;> try (subst h; rfl)
  rename_i record
  by_cases hw : (takenOf record).request.wellFormed
  · simp [hw] at h
  · rw [if_neg hw] at h
    obtain rfl := Option.some.inj h
    simp [exec, execMalformedRequest, hw]

/-- A request command that the unit hears is taken (R147, R156). -/
theorem exec_heard {c : Instr} {q : Taken} (h : takenBy c = some q) {s : State} (hs : s.hears = true) :
    exec c s = .next (s.takeIn q) := by rw [exec_takenBy h, State.send, if_pos hs]

/-- A request command that the unit does not hear changes nothing (R147, R156). -/
theorem exec_unheard {c : Instr} {q : Taken} (h : takenBy c = some q) {s : State} (hs : s.hears = false) :
    exec c s = .next s := by simp [exec_takenBy h, State.send, hs]

/-- REX, IDLE with nothing queued, takes a request at the instant it joins (R148, R149). -/
theorem State.takeIn_ready {s : State} (h : s.ready) (q : Taken) : s.takeIn q = s.serve q := by
  obtain ⟨-, h1, h2, -⟩ := h
  unfold State.takeIn State.joinIntake State.rexGo
  rw [if_pos (by simp [h2, Config.intakePlaces])]
  simp only [h2, List.nil_append, List.length_singleton, State.rexRun, h1]
  congr 1
  cases s with
  | mk tbu ports counters store maps commits held feeds ssu mgmt mlt due pending =>
    cases mgmt
    simp_all

/-- A request command that REX can serve at once is served. -/
theorem exec_ready {c : Instr} {q : Taken} {s : State} (hc : takenBy c = some q) (h : s.ready) :
    exec c s = .next (s.serve q) := by rw [exec_heard hc h.1, State.takeIn_ready h]

/-- A request answered while the response queue has a free place: its response is placed (R150). -/
theorem State.serve_placed {s t : State} {q : Taken} {res : Result} {l : List Byte}
    (h : s.judgeRequest q = (t, some (res, l))) (room : t.mlt.responses.length < 16) :
    s.serve q = t.placeResponse (answerOf q.tag q.kind res l) := by
  simp [State.serve, h, State.respond, State.responseRoom, Config.responsePlaces, room, answerOf]

/-- A request answered while the response queue is full: REX holds its response (R150). -/
theorem State.serve_held {s t : State} {q : Taken} {res : Result} {l : List Byte}
    (h : s.judgeRequest q = (t, some (res, l))) (full : 16 ≤ t.mlt.responses.length) :
    s.serve q = { t with mgmt := { t.mgmt with heldResponse := some (answerOf q.tag q.kind res l) } } := by
  simp [State.serve, h, State.respond, State.responseRoom, Config.responsePlaces, Nat.not_lt.mpr full, answerOf]

/-- A well formed request is judged by its own rule (R151). -/
theorem State.judgeRequest_wellFormed {s : State} {q : Taken} (h : q.request.wellFormed = true) :
    s.judgeRequest q = s.applyRequest q := by simp [State.judgeRequest, h]

/-- A malformed request changes nothing and is answered MALFORMED (R151). -/
theorem State.judgeRequest_malformed {s : State} {q : Taken} (h : q.request.wellFormed = false) :
    s.judgeRequest q = (s, some (.malformed, [])) := by simp [State.judgeRequest, h, answered, State.refuse]

/-- A request joins the queue behind a held response (R148). -/
theorem State.takeIn_holding {s : State} {q : Taken} (h : s.mgmt.heldResponse.isSome) (room : s.mgmt.intake.length < 8) :
    s.takeIn q = { s with mgmt := { s.mgmt with intake := s.mgmt.intake ++ [q] } } := by
  obtain ⟨r, hr⟩ := Option.isSome_iff_exists.mp h
  unfold State.takeIn State.joinIntake State.rexGo
  rw [if_pos (by simpa [Config.intakePlaces] using room)]
  simp only [List.length_append, List.length_singleton]
  cases s.mgmt.intake <;> simp [State.rexRun, hr]

/-- A request that meets a full intake queue is an overrun (R148). -/
theorem State.takeIn_overrun {s : State} {q : Taken} (full : 8 ≤ s.mgmt.intake.length) : s.takeIn q = s.overrun q := by
  simp [State.takeIn, Config.intakePlaces, Nat.not_lt.mpr full]

end Sys2Proof.Machine
end

