-- ==== Sys2Proof/Laws/Seconds.lean ====
section
/-! SUPPORT. A second boundary with its counter transfer (R2, R166), and the hand-over of a cell of CP0 to the control receiver
(R26, R34), each said once. -/

namespace Sys2Proof.Machine

/-! ### The parts of a second boundary -/

@[simp] theorem State.countSecond_tbu (s : State) : s.countSecond.tbu = s.tbu.secondTaken := rfl
@[simp] theorem State.countSecond_mlt (s : State) : s.countSecond.mlt = s.mlt.countSecond := rfl
@[simp] theorem State.countSecond_counters (s : State) : s.countSecond.counters = s.counters := rfl
@[simp] theorem State.countSecond_due (s : State) : s.countSecond.due = s.due := rfl
@[simp] theorem State.countSecond_ports (s : State) : s.countSecond.ports = s.ports := rfl
@[simp] theorem Tbu.secondTaken_pendEpoch (t : Tbu) : t.secondTaken.pendEpoch = t.pendEpoch := rfl
@[simp] theorem Tbu.secondTaken_cycleNo (t : Tbu) : t.secondTaken.cycleNo = t.cycleNo := rfl
@[simp] theorem Mlt.countSecond_counterMode (m : Mlt) : m.countSecond.counterMode = m.counterMode := rfl

/-- SecsLeft reaches 0 at a second boundary exactly when it stood at 1, or at 0 (R166). -/
theorem Mlt.countSecond_ends (m : Mlt) :
    m.countSecond.secsLeft = some 0 ↔ m.secsLeft = some 1 ∨ m.secsLeft = some 0 := by
  cases h : m.secsLeft with
  | none => simp [Mlt.countSecond, h]
  | some n => simp only [Mlt.countSecond, h, Option.map_some, Option.some.injEq]; omega

/-- A second boundary that does not end a counter period makes no transfer (R166). -/
theorem State.transferPart_quiet {s : State} (h : s.mlt.secsLeft ≠ some 0) : s.transferPart = s := by
  simp [State.transferPart, h]

/-- A counter transfer of an AUTO period leaves the TBU alone (R166). -/
theorem State.autoTransfer_tbu (s : State) : s.autoTransfer.tbu = s.tbu := by
  unfold State.autoTransfer
  exact (moves_handReport _ _).tbu

/-- The transfer that a second boundary may call for leaves the TBU alone (R166). -/
theorem State.transferPart_tbu (s : State) : s.transferPart.tbu = s.tbu := by
  unfold State.transferPart
  split
  · exact s.autoTransfer_tbu
  · rfl

/-- In MANUAL a second boundary makes no transfer (R166). -/
theorem State.transferPart_manual {s : State} (h : s.mlt.counterMode = .manual) : s.transferPart = s := by
  simp [State.transferPart, h]

/-- The second boundary that ends a counter period in AUTO makes its transfer (R166). -/
theorem State.transferPart_ends {s : State} (h : s.mlt.counterMode = .auto) (h' : s.mlt.secsLeft = some 0) :
    s.transferPart = s.autoTransfer := by simp [State.transferPart, h, h']

/-- No epoch is pending: there is none to take (R15). -/
theorem State.openEpoch_none {s : State} (h : s.tbu.pendEpoch = none) : s.openEpoch = s := by simp [State.openEpoch, h]

/-- With no epoch pending every pace takes a second boundary alike: it is counted, and its transfer made (R2, R166). -/
theorem State.openSecond_of_no_epoch {s : State} (h : s.tbu.pendEpoch = none) (pace : SecondPace) :
    s.openSecond pace = s.countSecond.transferPart := by
  have hc : s.countSecond.openEpoch = s.countSecond := State.openEpoch_none h
  cases pace with
  | whole => simp [State.openSecond, h]
  | transferFirst => exact State.openEpoch_none (by rw [State.transferPart_tbu]; exact h)
  | epochFirst => simp [State.openSecond, hc]

/-! ### The hand-over to the control receiver -/

/-- Only a CONTROL cell of CP0 that agrees with its Tag is handed over (R26). -/
theorem State.handOver_other {s : State} {p : PortId} {h : Header} (hp : ¬ (h.kind = .control ∧ kindTagAgree h ∧ p = 0))
    (payload : List Byte) : s.handOver p h payload = s := if_neg hp

/-- While AWAKE the control receiver takes the request of the cell handed over (R26, R147). -/
theorem State.handOver_awake {s : State} {h : Header} (hk : h.kind = .control) (ha : kindTagAgree h = true)
    (hw : s.mgmt.wake = .awake) (payload : List Byte) : s.handOver 0 h payload = s.takeIn (takenOf payload) := by
  simp [State.handOver, State.controlCell, hk, ha, hw]

/-- While ASLEEP the cell handed over is discarded (R26, R147). -/
theorem State.handOver_asleep {s : State} {h : Header} (hw : s.mgmt.wake = .asleep) (p : PortId) (payload : List Byte) :
    s.handOver p h payload = s := by
  simp [State.handOver, State.controlCell, hw]

end Sys2Proof.Machine
end

