-- ==== Sys2Proof/WellFormed.lean ====
section
/-! DEFINITION. Which terms of Instr are commands that the part can meet: operands within what the link, the box or the record
they stand for can hold. Values that a request's own rule judges are not restricted. -/

namespace Sys2Proof

open Sys2Proof.Machine

/-- A part of a cycle boundary names an entry index of a map bank (section 4.1). -/
def CyclePart.wellFormed : CyclePart → Bool
  | .feed _ => true
  | .window _ e => e < Config.mapEntries
  | .revert _ e => e < Config.mapEntries
  | .lane _ => true
  | .commit _ => true

/-- A command is well formed: a unit has 160 bytes (R21), an entry index lies in 0 to 63, a malformed record is the payload of
a cell and malformed (R151, R180), and a request row carries a well formed record (R181). -/
def Instr.wellFormed : Instr → Bool
  | .powerUp _ => true
  | .slotBoundary _ _ => true
  | .pendingSlotPeriodTaken => true
  | .cycleBoundary order _ => order.all CyclePart.wellFormed
  | .pendingCycleLengthTaken => true
  | .secondBoundary _ => true
  | .epoch order _ => order.all CyclePart.wellFormed
  | .secondMark _ => true
  | .markWindowExpiry => true
  | .cellArrival _ unit => unit.length = Config.cellBytes
  | .lossDeadlineExpiry _ => true
  | .heldResponsePlaced => true
  | .commitResponsePlaced => true
  | .outPoint _ e => e < Config.mapEntries
  | .inPoint _ e => e < Config.mapEntries
  | .notice _ => true
  | .arming _ => true
  | .windowExpiry _ e => e < Config.mapEntries
  | .revertStart _ e => e < Config.mapEntries
  | .commitSwap _ => true
  | .commitTimeout _ => true
  | .feedBecomesRunning _ => true
  | .feedEntersTest _ => true
  | .feedLeavesTest _ => true
  | .autoCounterTransfer => true
  | .malformedRequest record => record.length = Config.payloadBytes && !(takenOf record).request.wellFormed
  | .setSlotPeriod _ _ _ => true
  | .setCycleLength _ _ => true
  | .setEpoch _ _ => true
  | .readTimebase _ => true
  | .setPort _ params => portSpareClear params
  | .readPort _ _ => true
  | .writeMapEntry _ _ => true
  | .clearMapEntry _ _ _ => true
  | .commitMap _ _ => true
  | .readMapEntry _ _ _ _ => true
  | .setFeedRunning _ _ _ => true
  | .setFeedDisabled _ _ _ => true
  | .setFeedTest _ _ _ => true
  | .readFeed _ _ _ => true
  | .injectPatternError _ _ => true
  | .writeSpliceRecord _ _ => true
  | .readSpliceRecord _ _ => true
  | .startLane _ _ _ => true
  | .stopLane _ _ => true
  | .readLane _ _ => true
  | .setReporting _ params => reportingSpareClear params
  | .latchCounters _ => true
  | .readCounters _ _ => true
  | .setGroups _ _ => true
  | .softReset _ => true
  | .stationTick => true

end Sys2Proof
end

