-- ==== Sys2Proof/Tests/Slice0.lean ====
section
/-! SUPPORT. Small checks of single commands against the spec's worked cases, the well-formedness checks at work, and for each
statement for the provers a state and operands that meet its premises (theorems witness_<Name>). -/

namespace Sys2Proof.Tests

open Sys2Proof.Machine

set_option Elab.async false

/-! ### Helpers -/

/-- An aligned port. -/
def livePort : Port := { Port.national with state := .live }

/-- Reset with the unit AWAKE on an aligned CP0, so that it hears requests. -/
def base : State := { State.reset.setPort 0 livePort with mgmt := { Mgmt.powerUp 0 with wake := .awake } }

/-- The base state with another TBU. -/
def timed (t : Tbu) : State := { base with tbu := t }

/-- The base state at a tick. -/
def atTick (n : BitVec 48) : State := timed { Tbu.powerUp with tickCount := n }

/-- What a command leaves. -/
def after (c : Instr) (s : State) : State :=
  match exec c s with
  | .next t => t
  | .fault _ => s
  | .refused _ => s

/-- A unit of a header and 156 zero bytes. -/
def unitOf (b0 b1 b2 b3 : Byte) : List Byte := b0 :: b1 :: b2 :: b3 :: List.replicate 156 0

/-- The fill cell of the worked case of section 11.1. -/
def fillUnit : List Byte := unitOf 0x7F 0xFC 0x00 0xE3

/-- The same cell with a wrong check. -/
def badUnit : List Byte := unitOf 0x7F 0xFC 0x00 0xE4

/-- A cell whose check the model computes (test_crc_of_fill_cell holds it to the spec's case). -/
def cellOf (kind : Kind) (tag : Tag) (boundary : Bool) (payload : List Byte) : List Byte :=
  (Header.sealed
    { kind := kind, tag := tag, boundary := boundary, marked := false, disc := false, cont := 0, check := 0 }).bytes
    ++ padTo 156 payload

/-- The base state with another value of a port. -/
def withPort (p : PortId) (q : Port) : State := base.setPort p q

/-- A state with the parties of a slot boundary due. -/
def slotDue (s : State) : State := { s with due := { s.due with slotFeeds := 0xFF, monitor := true } }

/-- A state with the parties of a cycle boundary due. -/
def cycleDue (s : State) : State :=
  { s with due := { s.due with cycleFeeds := 0xFF, lanes := 0xF, reverts := Vector.replicate 8 (BitVec.allOnes 64) } }

/-- A used map entry. -/
def entryA : MapEntry :=
  { used := true, outTag := 300, homeSrc := { port := 3, tag := 44 }, fallSrc := some { port := 4, tag := 7 }, share := 8192,
    autoRevert := true, revertDelay := 2 }

/-- Maps whose active bank holds entry 0 alone, with these live fields. -/
def mapWith (x : MapEntry) (v : Live) : FeedMap :=
  { FeedMap.powerUp with bankA := [(0, x)], bankB := [(0, x)], live := [(0, v)] }

/-- An entry on air on its home source. -/
def onAir : Live := Live.rest { port := 3, tag := 44 }

/-- A stored boundary cell of stream record 0. -/
def cellA : CellRecord :=
  { hdr := { kind := .programme, tag := 44, boundary := true, marked := true, disc := false, cont := 5, check := 0 }
    payload := List.replicate 156 0, arriveTick := 0, port := 3, stream := 0, next := none, holders := 1 }

/-- A store with one OPEN record of (CP3, 44), read by FD0, and its one cell in slot 0. -/
def storeA : Store :=
  { cells := [(0, cellA)], pool := { freed := [], fresh := 1 }, occ := upd (Vector.replicate 13 0) 3 1
    cong := Vector.replicate 13 false
    streams := [(0, { StreamRecord.unused with
      src := { port := 3, tag := 44 }, subs := 1, head := some 0, tail := some 0, count := 1, nextCont := some 6 })] }

/-- FD0 in a state with one live entry, its stream and its cell in the store. -/
def feedA (st : FeedState) (v : Live) : State :=
  { (base.setFeed 0 { Feed.powerUp with state := st }).setMap 0 (mapWith entryA v) with store := storeA }

theorem ready_base : base.ready := ⟨rfl, rfl, rfl, by decide⟩

/-- A stream table of one record is sound when its waiting feeds subscribe. -/
theorem soundOfOne {st : Store} {r : StreamRecord} (h : st.streams = [(0, r)])
    (hw : ∀ f : FeedId, hasFeed r.waiting f = true → hasFeed r.subs f = true) : st.streamsSound := by
  have key : ∀ k, k ≠ 0 → st.stream k = StreamRecord.unused := fun k hk => by
    simp [Store.stream, h, Table.get, Table.find, Ne.symm hk]
  have unopened : ∀ k, k ≠ 0 → (st.stream k).isOpen = false := fun k hk => by rw [key k hk]; rfl
  refine ⟨fun j k _ _ hj hk _ => ?_, fun k f hf => ?_⟩
  · rcases Nat.eq_zero_or_pos j with rfl | h1
    · rcases Nat.eq_zero_or_pos k with rfl | h2
      · rfl
      · rw [unopened k (by omega)] at hk; cases hk
    · rw [unopened j (by omega)] at hj; cases hj
  · rcases Nat.eq_zero_or_pos k with rfl | h1
    · have : st.stream 0 = r := by simp [Store.stream, h, Table.get, Table.find]
      rw [this] at hf ⊢
      exact hw f hf
    · rw [key k (by omega)] at hf
      simp [StreamRecord.unused, hasFeed] at hf

/-- An empty stream table is sound. -/
theorem soundOfNone {st : Store} (h : st.streams = []) : st.streamsSound := by
  have key : ∀ k, st.stream k = StreamRecord.unused := fun k => by simp [Store.stream, h, Table.get, Table.find]
  refine ⟨fun j k _ _ hj _ _ => ?_, fun k f hf => ?_⟩
  · rw [key j] at hj; cases hj
  · rw [key k] at hf; simp [StreamRecord.unused, hasFeed] at hf

theorem sound_storeA : storeA.streamsSound := soundOfOne rfl (by decide)

theorem sound_reset : State.reset.store.streamsSound := soundOfNone rfl

/-- A pool of which slot 0 is taken is sound when slot 0 alone holds a cell. -/
theorem poolOfOne {st : Store} {c : CellRecord} (hp : st.pool = { freed := [], fresh := 1 }) (hc : st.cells = [(0, c)]) :
    st.poolSound := by
  have hs : st.pool.stack = (List.range (Config.cellSlots - 1)).map (fun k => 1 + k) := by rw [hp]; exact List.nil_append _
  have hcell : ∀ i, i ≠ 0 → st.cell i = none := fun i hi => by simp [Store.cell, hc, Table.find, Ne.symm hi]
  have h0 : st.cell 0 = some c := by simp [Store.cell, hc, Table.find]
  have hn : Config.cellSlots = 16384 := rfl
  refine ⟨?_, fun i => ?_, fun i hi => ?_⟩
  · rw [hs]
    exact List.Nodup.map (fun a b h => Nat.add_left_cancel h) List.nodup_range
  · rw [hs, hn]
    simp only [List.mem_map, List.mem_range]
    constructor
    · rintro ⟨k, hk, rfl⟩
      exact ⟨by omega, hcell _ (by omega)⟩
    · rintro ⟨h1, h2⟩
      rcases Nat.eq_zero_or_pos i with rfl | h3
      · rw [h0] at h2; cases h2
      · exact ⟨i - 1, by omega, by omega⟩
  · rcases Nat.eq_zero_or_pos i with rfl | h3
    · decide
    · rw [hcell i (by omega)] at hi; cases hi

theorem pool_storeA : storeA.poolSound := poolOfOne rfl rfl

/-! ### The worked cases of the spec -/

/-- Section 11.1, the check of a fill cell. -/
theorem test_crc_of_fill_cell : crc8 [0x7F, 0xFC, 0x00] = 0xE3 := by decide +kernel

/-- R171: the first six payload bytes of the first pattern cell. -/
theorem test_pattern_first_bytes :
    bytesOfBits 6 (genRun 48 0x1FFFF).1 = [0x00, 0x03, 0x80, 0x0F, 0xC0, 0x38] := by decide +kernel

/-- Section 1.3, the slot clock from tick 0: boundary 3 falls at tick 3146 and no tick sooner. -/
theorem test_slot_boundary_tick :
    (timed { Tbu.powerUp with slotPos := 206158431, tickCount := 3146 }).slotReached = true ∧
      (timed { Tbu.powerUp with slotPos := 206158431, tickCount := 3145 }).slotReached = false := by decide +kernel

/-- Section 1.3: the period (1000, 0) taken at boundary 3 brings SlotPos to 271,694,431. -/
theorem test_slot_period_taken :
    (after (.slotBoundary [] .listed)
      (timed { Tbu.powerUp with slotPos := 206158431, tickCount := 3146, pendSlotPeriod := some (1000, 0), slotIndex := 2 })).tbu
      = { Tbu.powerUp with slotPos := 271694431, tickCount := 3146, slotInt := 1000, slotFrac := 0, slotIndex := 3 } := by
  decide +kernel

/-- Section 1.3: the 1024th slot boundary, at tick 1,073,742, is the first cycle boundary. -/
theorem test_first_cycle_boundary :
    (after (.cycleBoundary [] .listed)
      (timed { Tbu.powerUp with slotPos := 70368744448, tickCount := 1073742, slotIndex := 1023 })).tbu
      = { Tbu.powerUp with slotPos := 70437463925, tickCount := 1073742, cycleNo := 1 } := by decide +kernel

/-- Section 1.2, worked sequence: a mark 10 ticks after the local boundary re-phases without a second one. -/
theorem test_mark_in_window :
    (after (.secondMark .epochFirst)
      (timed { Tbu.powerUp with
        tickCount := 65536010, refState := .locked, secNo := 4, lastSecond := some 65536000, nextSecond := 81920000,
        expMark := some 65536000 })).tbu
      = { Tbu.powerUp with
          tickCount := 65536010, refState := .locked, secNo := 4, lastSecond := some 65536000, nextSecond := 81920010,
          expMark := some 81920010 } := by decide +kernel

/-- Section 1.2, worked sequence: the mark at tick 131,072,530 locks the timebase again as SecNo 9. -/
theorem test_relock :
    (after (.secondMark .epochFirst)
      (timed { Tbu.powerUp with
        tickCount := 131072530, refState := .holdover, secNo := 8, lastSecond := some 131072010, nextSecond := 147456010,
        relockRun := 2, lastMark := some 114688520 })).tbu
      = { Tbu.powerUp with
          tickCount := 131072530, refState := .locked, secNo := 9, lastSecond := some 131072530, nextSecond := 147456530,
          expMark := some 147456530 } := by decide +kernel

/-- Section 1.6, worked sequence: the epoch at tick 49,152,000 is followed by the slot boundary at 49,153,049. -/
theorem test_epoch :
    let t := (after (.epoch [] .listed)
      (timed { Tbu.powerUp with
        tickCount := 49152000, nextSecond := 49152000, secNo := 2, cycleNo := 45, slotIndex := 794, pendEpoch := some 1000,
        slotPos := 3221225484375 })).tbu
    (t.secNo, t.cycleNo, t.slotIndex, t.pendEpoch) = (3, 1000, 0, none) ∧
      (timed { t with tickCount := 49153049 }).slotReached = true ∧
      (timed { t with tickCount := 49153048 }).slotReached = false := by decide +kernel

/-- Section 5.4, worked case: the corrections of cells a to d and the marks they send. -/
theorem test_time_marks :
    limitedCorrection (rawCorrection (1025000 - 1000000) 20480) 8192 = 4520 ∧
      limitedCorrection (rawCorrection (1032000 - 1002000) 20480) 8192 = 8192 ∧
      limitedCorrection (rawCorrection (1040000 - 1030000) 20480) 8192 = -8192 ∧
      ((15000 : BitVec 32) - 4294960000).toNat = 22296 ∧
      movedMark (bytesOf 5 1099511626776) 4520 = bytesOf 5 3520 ∧ movedMark (bytesOf 5 5000) (-8192) = bytesOf 5 1099511624584 := by
  decide +kernel

/-- R91 and the worked case of section 5.2: an entry at credit 0 is eligible, one below 0 is not. -/
theorem test_select_eligibility :
    let s := feedA .running onAir
    (s.select 0, (s.setLive 0 0 { onAir with credit := -1 }).select 0) = (some 0, none) := by decide +kernel

/-- Section 8.7, worked sequence: A1 is held, A2 queues behind it, and A10 meets a full intake queue. -/
theorem test_burst :
    let full (n : Nat) : State :=
      { base with
        mlt := { Mlt.powerUp with responses := List.replicate 16 (answerOf 0 0x13 .ok []) }
        mgmt :=
          { base.mgmt with
            intake := List.replicate n { tag := 2, kind := 0x13, request := .readTimebase }
            heldResponse := if n = 0 then none else some (answerOf 1 0x13 .ok []) } }
    (after (.readTimebase 1) (full 0)).mgmt.rexState = .holding ∧
      (after (.readTimebase 3) (full 7)).mgmt.intake.length = 8 ∧ after (.readTimebase 10) (full 8) = full 8 := by decide +kernel

/-- R14: the epoch pending at a second boundary is taken with it, and a SET-EPOCH after it waits for the next one. -/
theorem test_epoch_taken_with_its_second :
    let s := after (.secondBoundary .epochFirst) (timed { Tbu.powerUp with tickCount := 16384000, pendEpoch := some 7 })
    let t := after (.epoch [] .listed) (after (.setEpoch 1 9) s)
    (s.tbu.secNo, s.tbu.cycleNo, s.tbu.pendEpoch) = (1, 7, none) ∧ (t.tbu.secNo, t.tbu.cycleNo, t.tbu.pendEpoch) = (1, 7, some 9) := by
  decide +kernel

/-- R156: right after power-up no request is served. -/
theorem test_unheard_request : after (.setGroups 1 { g0 := 5, g1 := 5, g2 := 5, g3 := 5 }) State.reset = State.reset := by decide +kernel

/-- R84: a feed in STARTING with PendMode TEST enters TEST, and is not made RUNNING, at a slot boundary that begins a cycle. -/
theorem test_starting_feed_enters_test :
    let s : State :=
      let x := base.setFeed 0 { Feed.powerUp with state := .starting, pendMode := .test }
      { x with due := { x.due with slotFeeds := 1, cycleFeeds := 1 } }
    after (.feedBecomesRunning 0) s = s ∧ ((after (.feedEntersTest 0) s).feed 0).state = .test ∧
      ((after (.feedBecomesRunning 0) (after (.setFeedRunning 1 0 0) s)).feed 0).state = .running := by
  decide +kernel

/-! ### The well-formedness checks -/

theorem test_wf_unit_length :
    Instr.wellFormed (.cellArrival 0 fillUnit) = true ∧ Instr.wellFormed (.cellArrival 0 (fillUnit.drop 1)) = false := by
  decide +kernel

theorem test_wf_cycle_part :
    Instr.wellFormed (.cycleBoundary [.window 0 63, .revert 1 63] .whole) = true ∧
      Instr.wellFormed (.cycleBoundary [.window 0 64] .whole) = false ∧
      Instr.wellFormed (.epoch [.revert 0 64] .listed) = false := by decide

theorem test_wf_entry_index :
    Instr.wellFormed (.outPoint 0 63) = true ∧ Instr.wellFormed (.outPoint 0 64) = false ∧
      Instr.wellFormed (.inPoint 0 64) = false ∧ Instr.wellFormed (.windowExpiry 0 64) = false ∧
      Instr.wellFormed (.revertStart 0 64) = false := by decide

/-- A READ-TIMEBASE record (kind 13h, no parameters). -/
def readRecord : List Byte := padTo 156 [0, 9, 0x13, 0]

theorem test_wf_malformed_record :
    Instr.wellFormed (.malformedRequest (padTo 156 [0, 9, 0x13, 1])) = true ∧
      Instr.wellFormed (.malformedRequest (padTo 155 [0, 9, 0x13, 1])) = false ∧
      Instr.wellFormed (.malformedRequest readRecord) = false := by decide +kernel

/-- SET-PORT parameters that list settings by a mask, every field 0. -/
def portParams (port : BitVec 8) (mask : BitVec 16) : PortParams :=
  { port := port, mask := mask, enable := 0, quota := 0, maxAge := 0, nomDelay := 0, jitLimit := 0, winLen := 0, winMin := 0,
    lossTimeout := 0, checkTag := 0 }

theorem test_wf_set_port_spare :
    Instr.wellFormed (.setPort 0 (portParams 1 0x1FF)) = true ∧ Instr.wellFormed (.setPort 0 (portParams 1 0x200)) = false ∧
      Instr.wellFormed (.setPort 0 { portParams 1 0 with checkTag := 1 }) = false := by decide

/-- SET-REPORTING parameters. -/
def reporting (enables : BitVec 16) (mode : BitVec 8) (period : BitVec 16) : ReportingParams :=
  { enables := enables, portEdge := 0, timebaseEdge := 0, patternEdge := 0, counterMode := mode, period := period }

theorem test_wf_set_reporting_spare :
    Instr.wellFormed (.setReporting 0 (reporting 0x7FF 0 60)) = true ∧
      Instr.wellFormed (.setReporting 0 (reporting 0x800 0 60)) = false := by decide

/-- A record of section 11.3 is read as the request row it stands for: SET-EPOCH with value 1000. -/
theorem test_record_of_set_epoch :
    takenOf (padTo 156 [0x12, 0x34, 0x12, 2, 0x03, 0xE8]) = { tag := 0x1234, kind := 0x12, request := .setEpoch 1000 } := by
  decide +kernel

/-! ### Witnesses: the queue, power-up, ticks, slots and cycles -/

theorem witness_StepRunsFrontCommand : State.reset.pending = [] := rfl

theorem witness_TimebaseAtPowerUpAndSoftReset :
    (1049 : BitVec 48) ≤ 1049 ∧ (1048 : BitVec 48) ≤ 1049 ∧ base.ready := ⟨by decide, by decide, ready_base⟩

/-- At NextSecond with no epoch pending, with and without a running period; at another tick. -/
theorem witness_TicksAndSecondsCount :
    let s := atTick 16384000
    let u : State := { s with mlt := { s.mlt with secsLeft := some 2 } }
    (s.tbu.tickCount = s.tbu.nextSecond ∧ s.tbu.pendEpoch = none ∧ s.mlt.secsLeft ≠ some 1 ∧ s.mlt.secsLeft ≠ some 0) ∧
      (u.tbu.tickCount = u.tbu.nextSecond ∧ u.tbu.pendEpoch = none ∧ u.mlt.secsLeft ≠ some 1 ∧ u.mlt.secsLeft ≠ some 0) ∧
      (atTick 16383999).tbu.tickCount ≠ (atTick 16383999).tbu.nextSecond := by decide +kernel

/-- The cycle boundary that counting reaches, one slot before it, one tick before it, and with an epoch at its tick. -/
def cycleEnd : Tbu := { Tbu.powerUp with tickCount := 1049, slotIndex := 1023 }

/-- An epoch at the present tick. -/
def epochNow : Tbu := { cycleEnd with nextSecond := 1049, pendEpoch := some 65535 }

theorem witness_SlotBoundaryAdvancesSlotClock :
    let reached (s : State) : Bool :=
      ((s.tbu.tickCount ++ (0 : BitVec 16)) - s.tbu.slotPos).toNat < 65536 ∧
        ¬ (s.tbu.tickCount = s.tbu.nextSecond ∧ s.tbu.pendEpoch ≠ none)
    (reached (atTick 1049) = true ∧ (atTick 1049).tbu.slotIndex + 1 < (atTick 1049).tbu.cycleLen) ∧
      (reached (timed cycleEnd) = true ∧ ¬ (timed cycleEnd).tbu.slotIndex + 1 < (timed cycleEnd).tbu.cycleLen) ∧
      reached (atTick 1048) = false ∧ reached (timed epochNow) = false := by decide +kernel

theorem witness_SlotBoundarySendsCellsAndFill :
    let s := slotDue (base.setFeed 0 { Feed.powerUp with state := .running, pendMode := .running })
    (atTick 1049).slotReached = true ∧ State.reset.select 0 = none ∧
      (s.slotReached = false ∧ hasFeed s.due.slotFeeds 0 = true ∧ (s.feed 0).state = .running ∧
        (s.feed 0).pendMode ≠ .test ∧ s.liveEntries 0 = []) := by decide +kernel

theorem witness_PatternCellCarriesSequence :
    let s (inject : Bool) := slotDue (base.setFeed 7 { Feed.powerUp with state := .test, injectPending := inject })
    ∀ b : Bool, (s b).slotReached = false ∧ hasFeed (s b).due.slotFeeds 7 = true ∧ ((s b).feed 7).state = .test ∧
      ((s b).feed 7).pendMode = .none ∧ ((s b).feed 7).injectPending = b := by decide +kernel

/-- A queued report. -/
def reportA : QueuedReport :=
  { report := .timebaseState .free .locked, tick := 0, cycle := 0, lost := false, dropCount := 0 }

theorem witness_MonitorCellByPriority :
    let s (m : Mlt) : State := slotDue { State.reset with mlt := m }
    let a := s { Mlt.powerUp with responses := [answerOf 1 0x13 .ok []], reports := [reportA] }
    let b := s { Mlt.powerUp with reports := [reportA] }
    let c := s Mlt.powerUp
    (a.slotReached = false ∧ a.due.monitor = true ∧ a.mlt.responses = [answerOf 1 0x13 .ok []]) ∧
      (b.slotReached = false ∧ b.due.monitor = true ∧ b.mlt.responses = [] ∧ b.mlt.reports = [reportA]) ∧
      (c.slotReached = false ∧ c.due.monitor = true ∧ c.mlt.responses = [] ∧ c.mlt.reports = []) := by decide +kernel

/-- A cycle boundary with one window open and one not; the pending values at each of the boundaries that take them. -/
theorem witness_CycleBoundaryCountsAndTakesPendingValues :
    let a : State := { feedA .running { onAir with estate := .outWait, windowLeft := 1 } with tbu := cycleEnd }
    let b := timed { Tbu.powerUp with tickCount := 1049, pendSlotPeriod := some (64, 65535) }
    let c := timed { epochNow with pendSlotPeriod := some (65535, 0), pendCycleLen := some 256 }
    let d := timed { cycleEnd with pendCycleLen := some 16384 }
    (a.slotReached = true ∧ ¬ a.tbu.slotIndex + 1 < a.tbu.cycleLen ∧ (a.live 0 0).estate = .outWait ∧
        (a.live 0 1).estate = .vacant) ∧
      (b.tbu.pendSlotPeriod = some (64, 65535) ∧ b.slotReached = true) ∧
      (c.tbu.pendSlotPeriod = some (65535, 0) ∧ c.tbu.tickCount = c.tbu.nextSecond ∧ c.tbu.pendEpoch = some 65535 ∧
        c.tbu.pendCycleLen = some 256) ∧
      (d.tbu.pendCycleLen = some 16384 ∧ d.slotReached = true ∧ ¬ d.tbu.slotIndex + 1 < d.tbu.cycleLen) := by decide +kernel

theorem witness_EpochRestartsCycleAndSlots :
    (timed epochNow).tbu.tickCount = (timed epochNow).tbu.nextSecond ∧ (timed epochNow).tbu.pendEpoch = some 65535 := by
  decide +kernel

/-- In FREE, 65 and 64 ticks after a boundary; in LOCKED, 64 ticks on either side of ExpMark, and 65. -/
theorem witness_SecondMarksInFreeAndLocked :
    let free (l : Option (BitVec 48)) := { Tbu.powerUp with tickCount := 1000, lastSecond := l }
    let locked (e : BitVec 48) := { Tbu.powerUp with tickCount := 1000, refState := .locked, expMark := some e }
    let early (e : BitVec 48) : Nat := (e - (locked e).tickCount).toNat
    let late (e : BitVec 48) : Nat := ((locked e).tickCount - e).toNat
    ((free none).refState = .free ∧ (free none).lastSecond = none) ∧
      ((free (some 935)).refState = .free ∧ 64 < ((1000 : BitVec 48) - 935).toNat) ∧
      ((free (some 936)).refState = .free ∧ ¬ 64 < ((1000 : BitVec 48) - 936).toNat) ∧
      ((locked 1064).refState = .locked ∧ early 1064 ≤ 64) ∧ ((locked 936).refState = .locked ∧ late 936 ≤ 64) ∧
      (64 < early 1065 ∧ 64 < late 1065) ∧ (64 < early 935 ∧ 64 < late 935) ∧
      (∀ t ∈ [free none, free (some 935), locked 1064], t.pendEpoch = none ∧ (timed t).due.epochPassed = false ∧ (timed t).mlt.secsLeft = none) ∧
      ({ Due.nothing with epochPassed := true } : Due).epochPassed = true := by decide +kernel

/-- Each row of the table of marks in HOLDOVER, at both ends of the spacing, with and without a boundary at the mark; the expiry,
a tick sooner and in FREE. -/
theorem witness_HoldoverEnteredAndLeft :
    let tick : BitVec 48 := 50000000
    let t (run : Nat) (mark last : Option (BitVec 48)) : Tbu :=
      { Tbu.powerUp with tickCount := tick, refState := .holdover, relockRun := run, lastMark := mark, lastSecond := last }
    let spacing (m : BitVec 48) : Nat := (tick - m).toNat
    ((t 0 none none).relockRun = 0) ∧
      ((t 1 (some 33616065) none).relockRun = 1 ∧ ¬ 16383936 ≤ spacing 33616065) ∧
      ((t 1 (some 33616064) none).relockRun = 1 ∧ 16383936 ≤ spacing 33616064 ∧ spacing 33616064 ≤ 16384064) ∧
      ((t 2 (some 33615936) none).relockRun = 2 ∧ 16383936 ≤ spacing 33615936 ∧ spacing 33615936 ≤ 16384064 ∧
        (t 2 (some 33615936) none).lastSecond = none ∧ (t 2 (some 33615936) none).pendEpoch = none ∧
        (timed (t 2 (some 33615936) none)).due.epochPassed = false ∧ (timed (t 2 (some 33615936) none)).mlt.secsLeft = none) ∧
      ((t 2 (some 33615936) (some 49999936)).lastSecond = some 49999936 ∧ ¬ 64 < (tick - 49999936).toNat) ∧
      ({ t 0 none none with refState := .locked, expMark := some 49999935 }.tickCount = (49999935 : BitVec 48) + 65) ∧
      ({ t 0 none none with refState := .locked, expMark := some 49999936 }.tickCount ≠ (49999936 : BitVec 48) + 65) ∧
      Tbu.powerUp.refState ≠ .locked := by decide +kernel

/-! ### Witnesses: counters and reports -/

/-- A counter period that ends at this tick, with an epoch pending or none. -/
def periodEnd (epoch : Option (BitVec 16)) : State :=
  { timed { Tbu.powerUp with tickCount := 16384000, pendEpoch := epoch } with
    mlt := { Mlt.powerUp with counterMode := .auto, secsLeft := some 1 } }

theorem witness_CountersSaturateAndTransfer :
    let top : State := { State.reset with
      counters := { Counters.powerUp with live := upd Counters.powerUp.live (CounterId.feed 0 .fill).index 65534 } }
    (∀ t ∈ [periodEnd none, periodEnd (some 7)],
        t.tbu.tickCount = t.tbu.nextSecond ∧ t.mlt.counterMode = .auto ∧ t.mlt.secsLeft = some 1) ∧
      ((periodEnd none).tbu.pendEpoch = none ∧ (periodEnd (some 7)).tbu.pendEpoch = some 7) ∧
      State.reset.tbu.tickCount ≠ State.reset.tbu.nextSecond ∧ (atTick 16384000).mlt.counterMode = .manual ∧
      ({ Mlt.powerUp with secsLeft := some 2 } : Mlt).secsLeft ≠ some 1 ∧
      ((top.count (.feed 0 .fill) 1).counter (.feed 0 .fill) = 65535 ∧ top.counter (.feed 0 .fill) < 65535 ∧
        top.counters.satMark.get (CounterId.feed 0 .fill).index = false) ∧
      (top.count (.feed 0 .fill) 0).counter (.feed 0 .fill) = 65534 := by decide +kernel

/-- R166: at the second boundary that brings SecsLeft to 0 the transfer is made, and a SET-REPORTING after it restarts the count. -/
theorem test_transfer_before_set_reporting :
    let s := after (.secondBoundary .epochFirst) (periodEnd (some 7))
    let t := after (.setReporting 1 (reporting 0x7FF 1 5)) s
    (s.mlt.transferNo, s.mlt.lastTransfer, s.mlt.secsLeft, s.mlt.reports.length) = (1, some (1, 7), some 60, 1) ∧
      (t.mlt.transferNo, t.mlt.secsLeft, t.mlt.reports.length) = (1, some 5, 1) := by decide +kernel

theorem witness_LatchCountersTransfersInManual :
    let auto : State := { base with mlt := { Mlt.powerUp with counterMode := .auto } }
    (base.ready ∧ base.mlt.counterMode = .manual) ∧ auto.ready ∧ auto.mlt.counterMode = .auto :=
  ⟨⟨ready_base, rfl⟩, ⟨rfl, rfl, rfl, by decide⟩, rfl⟩

/-- Admitted into the last free place, into a full queue, and refused by the enable and by an edge mode. -/
theorem witness_ReportQueueKeepsOrDrops :
    let m (n : Nat) : Mlt := { Mlt.powerUp with reports := List.replicate n reportA }
    ((m 31).enables.getLsbD 4 = true ∧ (m 31).reports.length < 32) ∧ ¬ (m 32).reports.length < 32 ∧
      ({ m 0 with enables := 0 } : Mlt).enables.getLsbD 4 = false ∧
      ¬ (({ m 0 with portEdge := .worsenOnly } : Mlt).portEdge = .anyChange ∨ PortState.hunt = .live) := by decide +kernel

/-! ### Witnesses: contribution ports -/

/-- A unit with a correct check. -/
def goodCheck (unit : List Byte) : Bool := unit.length = 160 && crc8 (unit.take 3) = unit.getD 3 0

/-- An alignment that slipped, and the unit it begins. -/
def slipped : List Byte := fillUnit.take 159

theorem witness_DelineationFindsAndLosesAlignment :
    let hunt (n : Nat) : State := withPort 0 { Port.national with goodRun := n }
    let live (n : Nat) : State := withPort 1 { livePort with badRun := n }
    (goodCheck fillUnit = true ∧ badUnit.length = 160 ∧ goodCheck badUnit = false) ∧
      (State.reset.port 1).state = .down ∧
      (((hunt 4).port 0).state = .hunt ∧ ((hunt 4).port 0).goodRun ≠ 5 ∧ ((hunt 5).port 0).goodRun = 5) ∧
      goodCheck (slipped ++ [badUnit.getD 159 0]) = true ∧
      ((withPort 1 { livePort with state := .lost }).port 1).state = .lost ∧
      (((live 2).port 1).state = .live ∧ ((live 2).port 1).badRun ≠ 3 ∧ ((live 3).port 1).badRun = 3) ∧
      ((withPort 1 { livePort with state := .absent }).port 1).state = .absent := by decide +kernel

/-- A window one cell short and full; thin and full windows; the first and the second of each. -/
theorem witness_WindowsJudgeContribution :
    let q (st : PortState) (count prog thin full : Nat) : Port :=
      { livePort with state := st, winCount := count, winProg := prog, thinRun := thin, fullRun := full }
    let ends (q : Port) : Bool := q.settings.winLen ≤ q.winCount + 1
    let isFull (q : Port) : Bool := q.settings.winMin ≤ q.winProg
    goodCheck fillUnit = true ∧ (unitHeader fillUnit).kind = .fill ∧ livePort.align = [] ∧
      (goodCheck (cellOf .control 5 false []) = true ∧ kindTagAgree (unitHeader (cellOf .control 5 false [])) = false) ∧
      (goodCheck (cellOf .control 4094 false []) = true ∧ (unitHeader (cellOf .control 4094 false [])).kind ≠ .programme) ∧
      ends (q .live 510 0 0 0) = false ∧
      (ends (q .live 511 3 0 0) = true ∧ isFull (q .live 511 3 0 0) = true) ∧
      (ends (q .live 511 2 0 0) = true ∧ isFull (q .live 511 2 0 0) = false ∧ (q .live 511 2 0 0).thinRun ≠ 1) ∧
      (isFull (q .live 511 2 1 0) = false ∧ (q .live 511 2 1 0).thinRun = 1) ∧
      (ends (q .absent 511 2 0 1) = true ∧ isFull (q .absent 511 2 0 1) = false) ∧
      (isFull (q .absent 511 3 0 0) = true ∧ (q .absent 511 3 0 0).fullRun ≠ 1) ∧
      (isFull (q .absent 511 3 0 1) = true ∧ (q .absent 511 3 0 1).fullRun = 1) := by decide +kernel

/-- The premises of a cell heard by an aligned port with no window ending. -/
def heardAt (s : State) (p : PortId) (unit : List Byte) : Bool :=
  goodCheck unit && (s.port p).align = [] && ((s.port p).state = .live || (s.port p).state = .absent)
    && (s.port p).winCount + 1 < (s.port p).settings.winLen

theorem witness_AddressAndControlCellsOnCP0 :
    let s : State := State.reset.setPort 0 livePort
    let awake : State :=
      { s with
        mgmt :=
          { Mgmt.powerUp 4094 with
            wake := .awake, heldResponse := some (answerOf 1 0x13 .ok [])
            intake := List.replicate 7 { tag := 2, kind := 0x13, request := .readTimebase } } }
    let idle (n : Nat) : State := { base with mlt := { Mlt.powerUp with responses := List.replicate n (answerOf 0 0x13 .ok []) } }
    let beyond (n : Nat) : State :=
      { idle n with
        mgmt :=
          { base.mgmt with
            heldResponse := some (answerOf 1 0x13 .ok [])
            intake := List.replicate 8 { tag := 2, kind := 0x13, request := .readTimebase } } }
    let asked : List Byte := cellOf .control 4094 false readRecord
    let request : Taken := takenOf (asked.drop 4)
    let addressed (a b : Byte) : List Byte := cellOf .address 4094 false [1, a, b]
    (heardAt s 0 (addressed 0x0F 0xFF) = true ∧ (unitHeader (addressed 0x0F 0xFF)).tag = 4094 ∧
        (unitHeader (addressed 0x0F 0xFF)).kind = .address ∧
        addressesOf ((addressed 0x0F 0xFF).drop 4) = some [4095] ∧
        addressesOf ((addressed 0x0F 0xFE).drop 4) = some [4094]) ∧
      (addressesOf ((addressed 0 5).drop 4) = some [5] ∧ s.mgmt.unitAddr = 0 ∧ s.mgmt.groups.toList.all (fun g => g = none)) ∧
      (heardAt s 0 (cellOf .control 4094 false []) = true ∧ (unitHeader (cellOf .control 4094 false [])).kind = .control ∧
        s.mgmt.wake = .asleep) ∧
      (heardAt awake 0 (cellOf .control 4094 false []) = true ∧ awake.mgmt.wake = .awake ∧
        awake.mgmt.heldResponse.isSome ∧ awake.mgmt.intake.length < 8) ∧
      (∀ t ∈ [idle 0, idle 15, idle 16], heardAt t 0 asked = true ∧ t.mgmt.wake = .awake ∧ t.mgmt.heldResponse = none ∧
        t.mgmt.intake = [] ∧ (t.judgeRequest request).1 = t ∧ ((t.judgeRequest request).2).isSome = true) ∧
      ((idle 15).mlt.responses.length < 16 ∧ 16 ≤ (idle 16).mlt.responses.length ∧
        ((idle 0).judgeRequest { request with request := .commitMap 1 }).2 = none) ∧
      (∀ t ∈ [beyond 15, beyond 16], heardAt t 0 asked = true ∧ t.mgmt.wake = .awake ∧ 8 ≤ t.mgmt.intake.length) ∧
      ((beyond 15).mlt.responses.length < 16 ∧ 16 ≤ (beyond 16).mlt.responses.length) := by decide +kernel

/-- A programme cell of (CP3, 44). -/
def programmeUnit : List Byte := cellOf .programme 44 true []

/-- Port CP3 aligned, with a quota, over the store of one stream. -/
def storing (quota : Nat) : State :=
  { (withPort 3 { livePort with settings := { Settings.regional with quota := quota } }) with store := storeA }

/-- The premises of a programme cell that is offered to the store. -/
def offered (s : State) : Bool :=
  heardAt s 3 programmeUnit && (unitHeader programmeUnit).kind = .programme && (unitHeader programmeUnit).tag.toNat ≤ 4093
    && (s.port 3).settings.checkTag ≠ some (unitHeader programmeUnit).tag

/-- R34: a READ-PORT(0) carried by a cell of CP0 shows the arrival of that cell whole, the cell counted in the window. -/
theorem test_read_port_shows_its_arrival :
    after (.cellArrival 0 (cellOf .control 4094 false [0, 9, 0x21, 1, 0])) base =
      let heard := withPort 0 { livePort with winCount := 1 }
      heard.placeResponse (answerOf 9 0x21 .ok (heard.portContents 0)) := by decide +kernel

theorem witness_ProgrammeCellStored :
    (offered (storing 2) = true ∧ (storing 2).store.openAt { port := 3, tag := (unitHeader programmeUnit).tag } = some 0 ∧
        (storing 2).store.pool.pop = some (1, { freed := [], fresh := 2 }) ∧
        (storing 2).store.occ.get 3 < ((storing 2).port 3).settings.quota ∧ ((storing 2).store.stream 0).waiting = 0) ∧
      (storing 2).store.poolSound := ⟨by decide +kernel, pool_storeA⟩

theorem witness_ProgrammeCellUnmatchedOrOverflowing :
    let unmatched : State := withPort 3 livePort
    let full : State := { storing 2 with store := { storeA with pool := { freed := [], fresh := 16384 } } }
    (offered unmatched = true ∧ unmatched.store.openAt { port := 3, tag := (unitHeader programmeUnit).tag } = none) ∧
      (offered (storing 1) = true ∧ (storing 1).store.openAt { port := 3, tag := (unitHeader programmeUnit).tag } = some 0 ∧
        ((storing 1).port 3).settings.quota ≤ (storing 1).store.occ.get 3) ∧
      (offered full = true ∧ full.store.openAt { port := 3, tag := (unitHeader programmeUnit).tag } = some 0 ∧
        full.store.pool.pop = none) := by decide +kernel

theorem witness_LossDeadlineMakesPortLost :
    let s (st : PortState) : State := (atTick 163840).setPort 0 { Port.national with state := st }
    (∀ st ∈ [PortState.hunt, PortState.absent, PortState.live], ((s st).port 0).lossDeadline = some (s st).tbu.tickCount ∧
        ((s st).port 0).state = st) ∧
      ((s .down).port 0).state = .down ∧ ((s .lost).port 0).state = .lost ∧
      (State.reset.port 0).lossDeadline ≠ some State.reset.tbu.tickCount := by decide +kernel

/-- A checked cell on tag 900 whose payload begins with these bytes. -/
def checkedUnit (payload : List Byte) : List Byte := cellOf .programme 900 false payload

/-- Port CP9 checking tag 900. -/
def checking (st : ChkState) (run : Nat) : State :=
  withPort 9
    { livePort with settings := { Settings.regional with checkTag := some 900 }, chkState := st, chkRun := run, chkGen := 0 }

/-- How many of a cell's bits differ from the all-zero sequence, which the state 0 generates. -/
def wrongBits (payload : List Byte) (first : Nat) : Nat :=
  (((genRun (1248 - first) 0).1.zip ((bitsOf ((checkedUnit payload).drop 4)).drop first)).filter (fun x => x.1 != x.2)).length

/-- Mismatches of 4 and 5 in SEARCH from a seed of 0, of 64 and 65 in LOCKED, at each length of the run. -/
theorem witness_CheckerJudgesPatternCells :
    (∀ payload ∈ [[0, 0, 0, 0x0F], [0, 0, 0, (0x1F : Byte)]], heardAt (checking .search 0) 9 (checkedUnit payload) = true ∧
        (unitHeader (checkedUnit payload)).kind = .programme ∧ (unitHeader (checkedUnit payload)).tag = 900 ∧
        ∀ k, k < 17 → (0 : BitVec 17).getLsbD (16 - k) = (bitsOf ((checkedUnit payload).drop 4)).getD k false) ∧
      wrongBits [0, 0, 0, 0x0F] 17 = 4 ∧ wrongBits [0, 0, 0, 0x1F] 17 = 5 ∧
      wrongBits (List.replicate 8 0xFF) 0 = 64 ∧ wrongBits (List.replicate 8 0xFF ++ [1]) 0 = 65 ∧
      (((checking .search 0).port 9).chkRun ≠ 1 ∧ ((checking .search 1).port 9).chkRun = 1) ∧
      (((checking .locked 0).port 9).chkState = .locked ∧ ((checking .locked 1).port 9).chkRun = 1) ∧
      ((checking .locked 0).port 9).settings.checkTag = some 900 := by decide +kernel

/-! ### Witnesses: source protection and the control path -/

/-- A stream table with no UNUSED record and no stream of CP3 or CP4. -/
def tableFull : Store :=
  { State.reset.store with
    streams := (List.range 128).map (fun k =>
      (k, { StreamRecord.unused with src := { port := 5, tag := BitVec.ofNat 12 k }, subs := 2 })) }

/-- FD0 RUNNING with entry 0 on air, its fallback source as given, and a second entry on (CP4, 7) or not. -/
def falling (fall : Option Source) (second : Bool) (st : Store) : State :=
  let x : MapEntry := { entryA with fallSrc := fall }
  let y : MapEntry := { entryA with outTag := 301, homeSrc := { port := 4, tag := 7 } }
  let m := mapWith x onAir
  { (feedA .running onAir).setMap 0
      (if second then { m with bankA := [(0, x), (1, y)], live := [(0, onAir), (1, Live.rest { port := 4, tag := 7 })] } else m)
    with store := st }

theorem witness_FallbackAtPortFailure :
    let home : Source := { port := 3, tag := 44 }
    let fall : Source := { port := 4, tag := 7 }
    let room (s : State) : Bool :=
      s.store.hasRoom fall || (s.setLive 0 0 { s.live 0 0 with curSrc := none }).closesRecord 0 home
    let s := falling (some fall) false storeA
    let none' := falling none false storeA
    let same := falling (some { port := 3, tag := 9 }) false storeA
    let twice := falling (some fall) true storeA
    let full := falling (some fall) false tableFull
    (∀ t ∈ [s, none', same, twice, full], (t.live 0 0).estate = .onAir ∧ (t.live 0 0).curSrc = some home) ∧
      (none'.entry 0 0).fallSrc = none ∧ (same.entry 0 0).fallSrc = some { port := 3, tag := 9 } ∧
      ((twice.entry 0 0).fallSrc = some fall ∧ twice.sourceTaken 0 0 fall = true) ∧
      ((full.entry 0 0).fallSrc = some fall ∧ full.sourceTaken 0 0 fall = false ∧ room full = false) ∧
      ((s.entry 0 0).fallSrc = some fall ∧ s.sourceTaken 0 0 fall = false ∧ room s = true ∧
        (∀ o, s.store.cong.get o = false) ∧ s.wf = true ∧ s.store.subscribed 0 home = true) ∧
      s.store.streamsSound ∧ (s.feed 0).state = .running ∧ (s.entry 0 0).used = true :=
  ⟨by decide +kernel, by decide +kernel, by decide +kernel, by decide +kernel, by decide +kernel, by decide +kernel, sound_storeA,
    by decide +kernel⟩

/-- A state with this many responses and intake requests waiting, and a held response or none. -/
def queued (responses intake : Nat) (held : Bool) : State :=
  { base with
    mlt := { Mlt.powerUp with responses := List.replicate responses (answerOf 0 0x13 .ok []) }
    mgmt :=
      { base.mgmt with
        intake := List.replicate intake { tag := 2, kind := 0x13, request := .readTimebase }
        heldResponse := if held then some (answerOf 1 0x13 .ok []) else none } }

theorem witness_HeldResponsesPlacedWhenRoom :
    let a := queued 15 0 true
    let b := queued 15 8 true
    let commit (n : Nat) : State := { queued n 0 false with heldCommits := [answerOf 3 0x32 .ok []] }
    (a.mgmt.heldResponse = some (answerOf 1 0x13 .ok []) ∧ a.mlt.responses.length < 16 ∧ a.mgmt.intake = []) ∧
      (b.mgmt.heldResponse = some (answerOf 1 0x13 .ok []) ∧ b.mlt.responses.length = 15 ∧
        b.mgmt.intake.head? = some { tag := 2, kind := 0x13, request := .readTimebase } ∧ b.mgmt.intake.length = 8) ∧
      (queued 0 0 false).mgmt.heldResponse = none ∧ 16 ≤ (queued 16 0 true).mlt.responses.length ∧
      ((commit 15).heldCommits = [answerOf 3 0x32 .ok []] ∧ (commit 15).mlt.responses.length < 16) ∧
      (queued 0 0 false).heldCommits = [] ∧ 16 ≤ (commit 16).mlt.responses.length := by decide +kernel

theorem witness_RequestsQueueOrOverrun :
    takenBy (.readTimebase 3) = some { tag := 3, kind := 0x13, request := .readTimebase } ∧
      ((queued 16 7 true).mgmt.heldResponse.isSome ∧ (queued 16 7 true).mgmt.intake.length < 8) ∧
      (8 ≤ (queued 15 8 true).mgmt.intake.length ∧ (queued 15 8 true).mlt.responses.length < 16) ∧
      (8 ≤ (queued 16 8 true).mgmt.intake.length ∧ 16 ≤ (queued 16 8 true).mlt.responses.length) ∧
      (∀ t ∈ [queued 16 7 true, queued 15 8 true, queued 16 8 true], t.mgmt.wake = .awake ∧ (t.port 0).state = .live) ∧
      State.reset.mgmt.wake ≠ .awake := by decide +kernel

/-- An unknown kind, a wrong length, spare fields that are not 0, and a well formed record. -/
theorem witness_MalformedRequestsAnswered :
    let bad := portParams 1 512
    let record (kind length : Byte) : List Byte := padTo 156 [0, 9, kind, length]
    (base.ready ∧ kindLength ((record 0x14 0).getD 2 0).toNat ≠ some ((record 0x14 0).getD 3 0).toNat ∧
        kindLength ((record 0x10 3).getD 2 0).toNat ≠ some ((record 0x10 3).getD 3 0).toNat ∧
        (record 0x14 0).length = 156 ∧ (record 0x10 3).length = 156) ∧
      (takenBy (.setPort 0 bad) = some { tag := 0, kind := 0x20, request := .setPort bad } ∧
        (Request.setPort bad).wellFormed = false) ∧
      512 ≤ bad.mask.toNat ∧
      (∀ n, n < 9 → (portParams 1 0).mask.getLsbD n = false) ∧
      (∀ q ∈ [({ portParams 1 0 with enable := 1 } : PortParams), { portParams 1 0 with quota := 1 },
          { portParams 1 0 with maxAge := 1 }, { portParams 1 0 with nomDelay := 1 }, { portParams 1 0 with jitLimit := 1 },
          { portParams 1 0 with winLen := 1 }, { portParams 1 0 with winMin := 1 }, { portParams 1 0 with lossTimeout := 1 },
          { portParams 1 0 with checkTag := 1 }], (Request.setPort q).wellFormed = false) ∧
      2048 ≤ (reporting 0x800 0 60).enables.toNat ∧ (takenOf readRecord).request.wellFormed = true :=
  ⟨⟨ready_base, by decide +kernel⟩, by decide +kernel⟩

/-! ### Witnesses: splices, reverts and lanes -/

/-- A state whose records all hold their power-up values is settled. -/
theorem settled_idle {s : State} (h : s.ssu.records = []) (hw : s.due.walks = []) : s.settled :=
  ⟨fun r hr => by
    have hb : s.record r = SpliceRecord.blank := by simp [State.record, h, Table.get, Table.find]
    rw [hb] at hr
    exact absurd hr (by decide), hw⟩

/-- A state with one record is settled when that record, if ARMED, has an item STARTED. -/
theorem settled_armed {s : State} {x : SpliceRecord} (h : s.ssu.records = [(5, x)]) (hx : x.startedCount ≠ 0)
    (hw : s.due.walks = []) : s.settled :=
  ⟨fun r hr => by
    rcases Decidable.em (5 = r) with h5 | h5
    · have hb : s.record r = x := by simp [State.record, h, Table.get, Table.find, h5]
      rw [hb]
      exact hx
    · have hb : s.record r = SpliceRecord.blank := by simp [State.record, h, Table.get, Table.find, h5]
      rw [hb] at hr
      exact absurd hr (by decide), hw⟩

/-- The live fields of an entry in a splice toward (CP4, 7) of record 5 of lane 0. -/
def splicing (st : EState) (window : Nat) (miss : OnMiss) (owner : Owner) : Live :=
  { onAir with
    estate := st, newSrc := some { port := 4, tag := 7 }, prevSrc := some { port := 3, tag := 44 }, windowLeft := window,
    onMiss := some miss, owner := some owner }

/-- The store of FD0's stream with its waiting subscription to (CP4, 7). -/
def storeB : Store :=
  { storeA with
    streams := storeA.streams ++ [(1, { StreamRecord.unused with src := { port := 4, tag := 7 }, subs := 1, waiting := 1 })] }

theorem witness_OutPointLeavesOldSource :
    let s : State := slotDue ({ feedA .running (splicing .outWait 1 .force .revert) with store := storeB }.setPort 4 livePort)
    let ready (t : State) : Bool :=
      (t.live 0 0).estate = .outWait ∧ t.headOf 0 0 = some 0 ∧ t.isStale 0 s.stamp = false ∧ t.store.isBoundary 0 = true
    (s.slotReached = false ∧ hasFeed s.due.slotFeeds 0 = true ∧ (s.feed 0).state = .running ∧ (s.feed 0).pendMode ≠ .test ∧
        0 ∈ s.liveEntries 0 ∧ ready (s.upToEntry 0 0) = true) ∧
      (s.wf = true ∧ ready s = true ∧ (s.live 0 0).curSrc = some { port := 3, tag := 44 } ∧
        (s.live 0 0).newSrc = some { port := 4, tag := 7 } ∧ (s.port 4).state = .live ∧
        s.store.subscribed 0 { port := 4, tag := 7 } = true) ∧
      (State.reset.wf = true ∧ (State.reset.live 0 0).estate ≠ .outWait) := by decide +kernel

/-- A SWITCH of FD0, or of more feeds, to (CP4, 7). -/
def switchA (fs : FeedSet) (st : RecStatus) (outcomes : List (FeedId × SpliceResult)) : SpliceRecord :=
  { SpliceRecord.blank with
    carries := .action, action := .switch, feeds := fs, outTag := 300, newSrc := { port := 4, tag := 7 }, dueCycle := 3,
    noticeLead := 3, window := 4, status := st, outcomes := outcomes }

/-- A state with record 5 and lane 0 on it. -/
def laneOn (s : State) (st : LaneState) (x : SpliceRecord) : State :=
  cycleDue ((s.setRecord 5 x).setLane 0 { state := st, curRec := 5, linkRun := 0 })

/-- A revert, a record with a second feed still in a splice, and a record at its last outcome with Continue clear and set. -/
theorem witness_InPointLandsSplice :
    let s (o : Owner) : State := slotDue (feedA .running { splicing .inWait 1 .force o with prevSrc := none })
    let r := s .revert
    let two := laneOn (s (.lane 0 5)) .armed (switchA 3 .armed [(0, .started), (1, .started)])
    let one := laneOn (s (.lane 0 5)) .armed (switchA 1 .armed [(0, .started)])
    let more := laneOn (s (.lane 0 5)) .armed { switchA 1 .armed [(0, .started)] with goesOn := true }
    let ready (t u : State) : Bool :=
      (u.live 0 0).estate = .inWait ∧ u.headOf 0 0 = some 0 ∧ u.isStale 0 t.stamp = false ∧ u.store.isBoundary 0 = true
    (∀ t ∈ [r, two, one, more], t.slotReached = false ∧ hasFeed t.due.slotFeeds 0 = true ∧ (t.feed 0).state = .running ∧
        (t.feed 0).pendMode ≠ .test ∧ 0 ∈ t.liveEntries 0 ∧ ready t (t.upToEntry 0 0) = true ∧ t.wf = true ∧ ready t t = true) ∧
      (r.live 0 0).owner = some .revert ∧
      ((two.live 0 0).owner = some (.lane 0 5) ∧ (two.record 5).status = .armed ∧
        ((1 : FeedId), SpliceResult.started) ∈ (two.record 5).outcomes) ∧
      (∀ t ∈ [one, more], (t.live 0 0).owner = some (.lane 0 5) ∧ (t.record 5).status = .armed ∧
        (∀ g, g ≠ 0 → (g, SpliceResult.started) ∉ (t.record 5).outcomes) ∧ (t.lane 0).state = .armed ∧
        (t.lane 0).curRec = 5 ∧ ∀ l, l ≠ 0 → (t.lane l).curRec ≠ 5) ∧
      ((one.record 5).goesOn = false ∧ (more.record 5).goesOn = true) ∧
      (State.reset.wf = true ∧ (State.reset.live 0 0).estate ≠ .inWait ∧ (State.reset.live 0 0).estate ≠ .outWait) := by decide +kernel

/-- Distances 1 and NoticeLead; a SHARE; a feed without streams, one with room and one without. -/
theorem witness_NoticeMarksTargetFeeds :
    let x := switchA 1 .pending []
    let s := laneOn State.reset .waiting x
    let near := laneOn State.reset .waiting { x with dueCycle := 1, action := .share }
    let held := laneOn (feedA .running onAir) .waiting x
    let full : State := { held with store := tableFull }
    (∀ t ∈ [s, near, held, full], t.wf = true ∧ t.due.lanes.getLsbD 0 = true ∧ (t.lane 0).state = .waiting ∧
        (t.lane 0).curRec = 5 ∧ (t.record 5).carries = .action ∧ (t.record 5).status ≠ .noticed ∧
        (t.record 5).status ≠ .armed ∧ ((t.record 5).dueCycle - t.tbu.cycleNo).toNat ≤ (t.record 5).noticeLead) ∧
      ((s.record 5).dueCycle - s.tbu.cycleNo).toNat = (s.record 5).noticeLead ∧
      (((near.record 5).dueCycle - near.tbu.cycleNo).toNat = 1 ∧ (near.record 5).action ≠ .switch) ∧
      (hasFeed (s.record 5).feeds 0 = true ∧ s.feedNeeds 0 = false) ∧
      (held.feedNeeds 0 = true ∧ held.store.hasRoom (held.record 5).newSrc = true) ∧
      (full.feedNeeds 0 = true ∧ full.store.hasRoom (full.record 5).newSrc = false) := by decide +kernel

/-- A lane in NOTICED and one in WAITING, an outcome STARTED, DONE of a SHARE, and ABANDONED of a feed that does not run. -/
theorem witness_ArmingDecidesOutcome :
    let x : SpliceRecord := { switchA 1 .noticed [] with dueCycle := 0 }
    let on := (feedA .running onAir).setPort 4 livePort
    let started := laneOn on .noticed x
    let share := laneOn on .waiting { x with status := .pending, action := .share, newShare := 4096 }
    let off := laneOn (feedA .disabled onAir) .noticed x
    (∀ t ∈ [started, share, off], t.wf = true ∧ t.due.lanes.getLsbD 0 = true ∧ (t.lane 0).curRec = 5 ∧
        (t.record 5).dueCycle = t.tbu.cycleNo ∧ (t.record 5).feeds = oneFeed 0 ∧ (t.record 5).outcomes = [] ∧
        (t.record 5).goesOn = false) ∧
      ((started.lane 0).state = .noticed ∧ started.armOutcome (started.record 5) 0 = .started) ∧
      ((share.lane 0).state = .waiting ∧ (share.record 5).carries = .action ∧ (share.record 5).status = .pending ∧
        (share.record 5).marks = [] ∧ share.armOutcome (share.record 5) 0 = .done) ∧
      ((off.lane 0).state = .noticed ∧ off.armOutcome (off.record 5) 0 = .abandoned) := by decide +kernel

/-- FD0's entry at the end of a window, its owner's record armed for FD0 and FD1. -/
def expiring (st : EState) (miss : OnMiss) (o : Owner) (prot : Option Source) : State :=
  laneOn { feedA .running { splicing st 0 miss o with protSrc := prot } with store := storeB } .armed
    (switchA 3 .armed [(0, .started), (1, .started)])

theorem witness_WindowExpiryEndsSplice :
    let lane := Owner.lane 0 5
    let a := expiring .inWait .force .revert none
    let b := expiring .inWait .force lane none
    let c := expiring .outWait .force lane none
    let d := expiring .outWait .cancel lane none
    let e := expiring .inWait .cancel lane none
    let p := expiring .outWait .cancel lane (some { port := 3, tag := 9 })
    let g := expiring .outWait .force .revert none
    (∀ t ∈ [a, b, c, d, e, p, g], t.wf = true ∧ (t.live 0 0).windowLeft = 0 ∧
        (t.live 0 0).newSrc = some { port := 4, tag := 7 } ∧ (t.record 5).status = .armed ∧
        ((1 : FeedId), SpliceResult.started) ∈ (t.record 5).outcomes) ∧
      ((a.settled ∧ b.settled) ∧ (c.settled ∧ d.settled) ∧ e.settled ∧ p.settled ∧ g.settled) ∧
      (∀ t ∈ [a, g], (t.live 0 0).owner = some .revert ∧ ∀ o, t.store.cong.get o = false) ∧
      (e.live 0 0).prevSrc = some { port := 3, tag := 44 } ∧ e.store.hasRoom { port := 3, tag := 44 } = true ∧
      ((feedA .running (splicing .outWait 1 .force .revert)).live 0 0).windowLeft ≠ 0 ∧
      ((feedA .running onAir).live 0 0).estate = .onAir := by
  have h : ∀ st miss o prot, (expiring st miss o prot).settled := fun _ _ _ _ => settled_armed rfl (by decide) rfl
  exact ⟨by decide +kernel, ⟨⟨h _ _ _ _, h _ _ _ _⟩, ⟨h _ _ _ _, h _ _ _ _⟩, h _ _ _ _, h _ _ _ _, h _ _ _ _⟩, by decide +kernel⟩

/-- RevertLeft 1 and 0, with a subscription and with room alone. -/
theorem witness_RevertStartsAtZero :
    let v (n : Nat) : Live :=
      { onAir with
        estate := .fallback, curSrc := some { port := 4, tag := 7 }, protSrc := some { port := 3, tag := 44 }, revertLeft := some n }
    let s (n : Nat) : State := cycleDue (feedA .running (v n))
    let u : State := cycleDue { feedA .running (v 0) with store := State.reset.store }
    (∀ t ∈ [s 0, s 1, u], t.wf = true ∧ (t.due.reverts.get 0).getLsbD 0 = true ∧ (t.live 0 0).estate = .fallback ∧
        (t.live 0 0).protSrc = some { port := 3, tag := 44 } ∧ t.sourceTaken 0 0 { port := 3, tag := 44 } = false) ∧
      ((s 0).live 0 0).revertLeft = some 0 ∧ ((s 1).live 0 0).revertLeft = some 1 ∧
      (s 0).store.subscribed 0 { port := 3, tag := 44 } = true ∧
      (u.store.subscribed 0 { port := 3, tag := 44 } = false ∧ u.store.hasRoom { port := 3, tag := 44 } = true) ∧
      (State.reset.live 0 0).estate ≠ .fallback := by decide +kernel

/-! ### Witnesses: commits and changes of feed state -/

/-- A pending commit of FD0. -/
def commitA (n : Nat) (due : Bool) : Commit := { feeds := 1, tag := 9, considered := n, due := due }

/-- Free of splices, on a feed that runs and on one that does not, with the home source kept and changed; busy at 64 and at 63
boundaries. -/
theorem witness_CommitSwapsOrTimesOut :
    let moved : MapEntry := { entryA with homeSrc := { port := 5, tag := 1 } }
    let s (st : FeedState) (v : Live) (x : MapEntry) (n : Nat) : State :=
      { (feedA st v).setMap 0 { mapWith entryA v with bankB := [(0, x)], locked := true } with commits := [commitA n true] }
    let busy := splicing .outWait 1 .force .revert
    (∀ t ∈ [s .running onAir entryA 1, s .running onAir moved 1, s .disabled onAir entryA 1, s .running busy entryA 64,
          s .running busy entryA 63],
        t.wf = true ∧ (t.commitOf 0).any (fun c => c.due && c.feeds = oneFeed 0) = true ∧ t.heldCommits = [] ∧
          t.mlt.responses.length < 16) ∧
      (∀ t ∈ [s .running onAir entryA 1, s .running onAir moved 1, s .disabled onAir entryA 1], t.feedBusy 0 = false ∧
        t.swapCheck (oneFeed 0) = none) ∧
      ((s .running onAir entryA 1).feedNeeds 0 = true ∧ (s .running onAir entryA 1).entryOfTag 0 300 = some 0) ∧
      ((s .running onAir moved 1).entry 0 0).homeSrc ≠ moved.homeSrc ∧ (s .disabled onAir entryA 1).feedNeeds 0 = false ∧
      ((s .running busy entryA 64).feedBusy 0 = true ∧ (s .running busy entryA 64).commitOf 0 = some (commitA 64 true)) ∧
      ((s .running busy entryA 63).feedBusy 0 = true ∧ (s .running busy entryA 63).commitOf 0 = some (commitA 63 true)) := by
  decide +kernel

/-- FD0 in TEST asked to run, with one live entry. -/
def leaving : State :=
  cycleDue ((State.reset.setFeed 0 { Feed.powerUp with state := .test, pendMode := .running }).setMap 0 (mapWith entryA onAir))

theorem witness_FeedsRunFromCycleBoundary :
    let s := cycleDue (State.reset.setFeed 0 { Feed.powerUp with state := .starting })
    let test : State := slotDue (cycleDue (State.reset.setFeed 0 { Feed.powerUp with state := .starting, pendMode := .test }))
    (((s.feed 0).pendMode ≠ .test ∧ (test.feed 0).pendMode = .test ∧ hasFeed test.due.slotFeeds 0 = true) ∧ hasFeed s.due.cycleFeeds 0 = true ∧ (s.feed 0).state = .starting ∧ (State.reset.feed 0).state ≠ .starting) ∧
      (hasFeed leaving.due.cycleFeeds 0 = true ∧ (leaving.feed 0).state = .test ∧ (leaving.feed 0).pendMode = .running ∧
        leaving.streamsFit 0 = true ∧ leaving.wf = true ∧ 0 ∈ leaving.liveEntries 0 ∧
        (leaving.live 0 0).curSrc = some { port := 3, tag := 44 }) ∧
      leaving.store.streamsSound ∧ (State.reset.feed 0).state ≠ .test ∧
      ({ leaving with store := tableFull } : State).streamsFit 0 = false :=
  ⟨by decide +kernel, by decide +kernel, sound_reset, by decide +kernel, by decide +kernel⟩

theorem witness_FeedEntersTestAtRest :
    let s : State :=
      slotDue ((feedA .running onAir).setFeed 0 { Feed.powerUp with state := .running, pendMode := .test })
    (hasFeed s.due.slotFeeds 0 = true ∧ (s.feed 0).pendMode = .test ∧ s.wf = true ∧ s.feedNeeds 0 = true ∧
        0 ∈ s.liveEntries 0) ∧
      s.settled ∧ (s.feed 0).injectPending = false ∧ (∀ r, (s.record r).inUse = true → hasFeed (s.record r).feeds 0 = false) ∧ s.store.streamsSound ∧
      (State.reset.feed 0).pendMode ≠ .test :=
  ⟨by decide +kernel, settled_idle rfl rfl, rfl, fun _ h => Bool.noConfusion h, sound_storeA, by decide +kernel⟩

/-! ### Witnesses: requests -/

theorem witness_SetSlotPeriodPending :
    let s := timed { Tbu.powerUp with tickCount := 1049, pendSlotPeriod := some (64, 0) }
    let u := timed { epochNow with pendSlotPeriod := some (65535, 65535) }
    base.ready ∧ (s.slotReached = true ∧ s.tbu.pendSlotPeriod = some (64, 0)) ∧
      (u.tbu.tickCount = u.tbu.nextSecond ∧ u.tbu.pendEpoch = some 65535 ∧ u.tbu.pendSlotPeriod = some (65535, 65535)) :=
  ⟨ready_base, by decide +kernel⟩

/-- A feed not DISABLED, a commit, a share above the least U of 4096 in FD0 and not in another feed, and none. -/
theorem witness_SetCycleLengthChecked :
    let running := feedA .starting onAir
    let waits : State := { base with commits := [commitA 0 false] }
    let above := base.setMap 0 (mapWith { entryA with share := 4097 } onAir)
    let fits := base.setMap 0 (mapWith { entryA with share := 4096 } onAir)
    (running.ready ∧ (running.feed 0).state ≠ .disabled) ∧ (waits.ready ∧ waits.commits ≠ []) ∧
      (above.ready ∧ (∀ f, (above.feed f).state = .disabled) ∧ above.commits = [] ∧
        16 * max 256 (min 16384 (0 : BitVec 16).toNat) < shareSum (above.map 0).active) ∧
      (fits.ready ∧ (∀ f, (fits.feed f).state = .disabled) ∧ fits.commits = [] ∧
        ∀ f, shareSum (fits.map f).active ≤ 16 * max 256 (min 16384 (0 : BitVec 16).toNat)) :=
  ⟨⟨ready_base, by decide +kernel⟩, ⟨ready_base, by decide +kernel⟩, ⟨ready_base, by decide +kernel⟩,
    ready_base, by decide +kernel⟩

theorem witness_SetEpochPending :
    let s := timed epochNow
    let armed : Tbu := { Tbu.powerUp with tickCount := 20000000, pendEpoch := some 0 }
    let locked : Tbu := { armed with refState := .locked, expMark := some 20000000 }
    let relock : Tbu := { armed with refState := .holdover, relockRun := 2, lastMark := some 3616000 }
    base.ready ∧ (s.tbu.pendEpoch = some 65535 ∧ s.tbu.tickCount = s.tbu.nextSecond ∧ s.mlt.secsLeft = none) ∧
      (armed.pendEpoch = some 0 ∧ armed.refState = .free ∧ armed.lastSecond = none) ∧
      (locked.refState = .locked ∧ locked.expMark = some locked.tickCount) ∧
      (relock.refState = .holdover ∧ relock.relockRun = 2 ∧ relock.lastMark = some (relock.tickCount - 16384000)) ∧
      ((atTick 16384000).tbu.pendEpoch = none ∧ (atTick 16384000).tbu.tickCount = (atTick 16384000).tbu.nextSecond) :=
  ⟨ready_base, by decide +kernel⟩

/-- Indices at the last value of their ranges and one beyond; a read taken at once, queued and overrun. -/
theorem witness_ReadsChangeNothing :
    base.ready ∧
      ((12 : BitVec 8).toNat ≤ 12 ∧ ¬ (13 : BitVec 8).toNat ≤ 12 ∧ (63 : BitVec 8).toNat ≤ 63 ∧ ¬ (64 : BitVec 8).toNat ≤ 63 ∧
        (1023 : BitVec 16).toNat ≤ 1023 ∧ ¬ (1024 : BitVec 16).toNat ≤ 1023 ∧ (1 : BitVec 8).toNat ≤ 1 ∧
        ¬ (2 : BitVec 8).toNat ≤ 1) ∧
      ((queued 16 7 true).mgmt.heldResponse.isSome ∧ (queued 16 7 true).mgmt.intake.length < 8) ∧
      (8 ≤ (queued 15 8 true).mgmt.intake.length ∧ (queued 15 8 true).mlt.responses.length < 16) :=
  ⟨ready_base, by decide +kernel⟩

/-- A port out of range, a tag out of range, a Quota below Occ and at it, and every setting but Enable listed. -/
theorem witness_SetPortWritesListedSettings :
    let all (quota checkTag : BitVec 16) : PortParams :=
      { portParams 3 0x1FE with quota := quota, checkTag := checkTag }
    let s : State := { base with store := storeA }
    s.ready ∧ base.ready ∧
      (∀ c ∈ [portParams 13 0, all 1 4094, all 0 4093, all 1 0xFFFF], (Request.setPort c).wellFormed = true ∧
        c.mask.getLsbD 0 = false) ∧
      12 < (portParams 13 0).port.toNat ∧ (all 1 4094).port.toNat = (3 : PortId).val ∧
      ¬ ((all 1 4094).checkTag.toNat ≤ 4093 ∨ (all 1 4094).checkTag = 0xFFFF) ∧
      ((all 0 4093).checkTag.toNat ≤ 4093 ∧ ¬ s.store.occ.get 3 ≤ min 16384 (all 0 4093).quota.toNat) ∧
      ((all 1 0xFFFF).checkTag = 0xFFFF ∧ s.store.occ.get 3 ≤ min 16384 (all 1 0xFFFF).quota.toNat) ∧
      (portParams 12 0).port.toNat = (12 : PortId).val :=
  ⟨ready_base, ready_base, by decide +kernel⟩

theorem witness_SetPortEnablesAndDisables :
    let s (st : PortState) : State := withPort 12 { livePort with state := st }
    (∀ st, (s st).ready) ∧ (∀ st ∈ [PortState.down, .hunt, .live, .absent, .lost], ((s st).port 12).state = st) ∧
      (12 : PortId) ≠ 0 ∧ (storeA.stream 0).isOpen = true ∧ (storeA.stream 0).src.port = 3 :=
  ⟨fun _ => ready_base, by decide +kernel⟩

/-- Map parameters for FD0 and FD7. -/
def mapParams (index : BitVec 8) (tag home : BitVec 16) : MapParams :=
  { feeds := 0x81, index := index, outTag := tag, homeSrc := home, fallSrc := 0xFFFF, share := 0, autoRevert := 1, revertDelay := 0 }

theorem witness_ShadowEntriesWrittenAndCleared :
    let locked := base.setMap 7 { FeedMap.powerUp with locked := true }
    let p := mapParams 63 4093 0xCFFD
    (base.ready ∧ locked.ready) ∧ (63 < (mapParams 64 0 0).index.toNat ∧ (sourceOf 0xD000).isNone ∧
        ¬ (mapParams 0 4094 0).outTag.toNat ≤ 4093) ∧
      (base.wf = true ∧ 1 ≤ 16 * base.tbu.pendCycleLen.getD base.tbu.cycleLen ∧ p.feeds ≠ 0 ∧
        p.index.toNat ≤ 63 ∧ p.outTag.toNat ≤ 4093 ∧ (sourceOf p.homeSrc).isSome ∧ optSourceOf p.fallSrc = some none ∧
        p.autoRevert.toNat ≤ 1 ∧ ∀ f, (base.map f).locked = false) ∧
      (hasFeed p.feeds 7 = true ∧ (locked.map 7).locked = true) :=
  ⟨⟨ready_base, ready_base⟩, by decide +kernel⟩

theorem witness_CommitMapPendsOrIsRefused :
    let locked := base.setMap 7 { FeedMap.powerUp with locked := true }
    let above := base.setMap 0 { FeedMap.powerUp with bankB := [(63, { entryA with share := 16385 })] }
    let full := base.setMap 0 { FeedMap.powerUp with bankB := [(63, { entryA with share := 16384 })] }
    let same := base.setMap 0
      { FeedMap.powerUp with bankB := [(0, entryA), (1, { entryA with homeSrc := { port := 5, tag := 1 } })] }
    (base.ready ∧ same.ready) ∧ base.commitCheck 1 = none ∧
      (hasFeed 0x80 7 = true ∧ (locked.map 7).locked = true) ∧
      (∀ t ∈ [above, full, same], (t.map 0).locked = false ∧ t.feedNeeds 0 = false) ∧
      16 * above.tbu.pendCycleLen.getD above.tbu.cycleLen < shareSum (above.map 0).shadow ∧
      full.commitCheck (oneFeed 0) = none ∧ same.commitCheck 1 = some (.duplicate, [0, 0]) :=
  ⟨⟨ready_base, ready_base⟩, by decide +kernel⟩

theorem witness_SetFeedModesRunningAndTest :
    let s (st : FeedState) : State := (base.setFeed 7 { Feed.powerUp with state := st }).setMap 7 (mapWith entryA onAir)
    let full (st : FeedState) : State := { s st with store := tableFull }
    (∀ st, (s st).ready ∧ (full st).ready ∧ (s st).store.streamsSound) ∧
      (7 < (8 : BitVec 8).toNat ∧ (7 : BitVec 8).toNat = (7 : FeedId).val ∧ (4093 : BitVec 16).toNat ≤ 4093 ∧
        ¬ (4094 : BitVec 16).toNat ≤ 4093) ∧
      (∀ st ∈ [FeedState.disabled, .starting, .running, .test], ((s st).feed 7).state = st ∧ (s st).streamsFit 7 = true ∧
        (full st).streamsFit 7 = false ∧ (s st).wf = true ∧ 0 ∈ (s st).liveEntries 7 ∧
        ((s st).live 7 0).curSrc = some { port := 3, tag := 44 }) :=
  ⟨fun _ => ⟨ready_base, ready_base, sound_reset⟩, by decide, by decide +kernel⟩

theorem witness_SetFeedDisabledStopsFeed :
    let s := feedA .running onAir
    let x (st : RecStatus) : State := base.setRecord 1023 (switchA 1 st [(0, .started)])
    (s.ready ∧ s.settled ∧ s.store.streamsSound ∧ base.ready) ∧
      (∀ r, (s.record r).inUse = true → hasFeed (s.record r).feeds 0 = false) ∧
      ((s.feed 0).state ≠ .disabled ∧ s.wf = true ∧ s.commitOf 0 = none ∧ 0 ∈ s.liveEntries 0) ∧
      (base.feed 0).state = .disabled ∧
      (∀ st ∈ [RecStatus.noticed, .armed, .pending], (x st).wf = true ∧ hasFeed ((x st).record 1023).feeds 0 = true ∧
        ((x st).record 1023).status = st) :=
  ⟨⟨ready_base, settled_idle rfl rfl, sound_storeA, ready_base⟩, fun _ h => Bool.noConfusion h,
    by decide +kernel⟩

theorem witness_InjectPatternErrorInTest :
    let s (st : FeedState) : State := base.setFeed 7 { Feed.powerUp with state := st, injectPending := true }
    (∀ st, (s st).ready) ∧ 7 < (8 : BitVec 8).toNat ∧ (7 : BitVec 8).toNat = (7 : FeedId).val ∧
      ((s .running).feed 7).state ≠ .test ∧ ((s .test).feed 7).state = .test ∧ ((s .test).feed 7).injectPending = true :=
  ⟨fun _ => ready_base, by decide +kernel⟩

/-- Splice parameters for an action on FD0 with Window and NewShare 0. -/
def spliceParams (index nextRec tag src due : BitVec 16) : SpliceParams :=
  { index := index, nextRec := nextRec, carries := 0, goesOn := 1, action := 2, feeds := 1, outTag := tag, newSrc := src,
    newShare := 0, dueCycle := due, noticeLead := 3, window := 0, onMiss := 1 }

theorem witness_SpliceRecordWritten :
    let p := spliceParams 1023 1023 4093 0xCFFD 4
    let used := base.setRecord 1023 (switchA 1 .noticed [])
    let parked := base.setLane 3 { state := .parked, curRec := 1023, linkRun := 16 }
    (base.ready ∧ used.ready ∧ parked.ready) ∧ p.index.toNat = 1023 ∧
      (¬ (spliceParams 1024 0 0 0 0).index.toNat ≤ 1023 ∧ ¬ (spliceParams 0 1024 0 0 0).nextRec.toNat ≤ 1023) ∧
      (p.nextRec.toNat ≤ 1023 ∧ p.carries.toNat ≤ 1 ∧ p.goesOn.toNat ≤ 1 ∧ p.action.toNat ≤ 2 ∧ p.onMiss.toNat ≤ 1 ∧
        p.outTag.toNat ≤ 4093 ∧ (sourceOf p.newSrc).isSome ∧ p.feeds ≠ 0) ∧
      (used.record 1023).inUse = true ∧
      (1 ≤ 16 * parked.tbu.pendCycleLen.getD parked.tbu.cycleLen ∧ (base.record 1023).inUse = false ∧
        (∀ l, (base.lane l).curRec = 1023 → (base.lane l).state ≠ .waiting ∧ (base.lane l).state ≠ .parked)) ∧
      ((parked.record 1023).inUse = false ∧ (parked.lane 3).curRec = 1023 ∧ (parked.lane 3).state = .parked ∧
        (∀ l, l ≠ 3 → (parked.lane l).curRec ≠ 1023) ∧ parked.wf = true ∧
        p.noticeLead.toNat < (p.dueCycle - parked.tbu.cycleNo).toNat ∧ (p.dueCycle - parked.tbu.cycleNo).toNat < 32768) :=
  ⟨⟨ready_base, ready_base, ready_base⟩, by decide +kernel⟩

theorem witness_LanesStartAndStop :
    let lane (st : LaneState) : State := base.setLane 3 { state := st, curRec := 5, linkRun := 0 }
    let head (x : SpliceRecord) : State := base.setRecord 1023 x
    let waits := head { switchA 1 .pending [] with dueCycle := 32767 }
    let held := head (switchA 1 .noticed [])
    (∀ st, (lane st).ready) ∧ (∀ x, (head x).ready) ∧
      (3 < (4 : BitVec 8).toNat ∧ 1023 < (1024 : BitVec 16).toNat ∧ (3 : BitVec 8).toNat = (3 : LaneId).val ∧
        (1023 : BitVec 16).toNat ≤ 1023) ∧
      (∀ st ∈ [LaneState.stopped, .waiting, .noticed, .armed, .parked, .stopping], ((lane st).lane 3).state = st) ∧
      ((base.lane 3).state = .stopped ∧ (base.record 1023).carries = .link ∧
        (base.record 1023).goesOn = false) ∧
      ((waits.record 1023).carries = .action ∧ (waits.record 1023).inUse = false ∧
        (waits.record 1023).noticeLead < ((waits.record 1023).dueCycle - waits.tbu.cycleNo).toNat ∧
        ((waits.record 1023).dueCycle - waits.tbu.cycleNo).toNat < 32768) ∧
      ((held.record 1023).carries = .action ∧ (held.record 1023).inUse = true) ∧
      (∀ f, ((lane .noticed).record 5).markOf f ≠ some .held) :=
  ⟨fun _ => ready_base, fun _ => ready_base, by decide +kernel⟩

theorem witness_ReportingAndGroupsWritten :
    let good (w : BitVec 16) : Bool := w = 0xFFFF ∨ (1 ≤ w.toNat ∧ w.toNat ≤ 4094)
    base.ready ∧ (Request.setReporting (reporting 0x7FF 2 0)).wellFormed = true ∧
      (Request.setReporting (reporting 0 1 3601)).wellFormed = true ∧
      ¬ (reporting 0x7FF 2 0).counterMode.toNat ≤ 1 ∧ (reporting 0 1 3601).counterMode.toNat ≤ 1 ∧
      (good 0 = false ∧ good 1 = true ∧ good 4094 = true ∧ good 4095 = false ∧ good 0xFFFF = true) :=
  ⟨ready_base, by decide +kernel⟩

theorem witness_SoftResetKeepsAndReturns :
    base.ready ∧ ∃ u, exec (.powerUp base.mgmt.unitAddr) base = .next u :=
  have h : ∀ b s, exec (.powerUp b) s = .next { State.powerUp b with pending := s.pending } := fun _ _ => rfl
  ⟨ready_base, _, h _ _⟩

/-! ### Witnesses: departures and headline results -/

theorem witness_AccrualAndSelection : (feedA .running onAir).wf = true ∧ 0 ∈ (feedA .running onAir).liveEntries 0 := by
  decide +kernel

theorem witness_ChosenCellFormedAndReleased :
    let s := feedA .running onAir
    s.wf = true ∧ s.select 0 = some 0 ∧ s.headOf 0 0 = some 0 ∧ s.store.cell 0 = some cellA ∧ cellA.payload.length = 156 := by
  decide +kernel

/-- A cell at its MaxAge and one tick beyond. -/
theorem witness_StaleHeadCellDiscarded :
    let s := feedA .running onAir
    (s.wf = true ∧ (s.live 0 0).estate = .onAir ∧ s.cellsOf 0 0 = [0] ∧ s.store.cell 0 = some cellA ∧
        cellA.holders = oneFeed 0 ∧ ((2097152 : BitVec 32) - cellA.arriveTick).toNat ≤ (s.port cellA.port).settings.maxAge ∧
        (s.port cellA.port).settings.maxAge < ((2097153 : BitVec 32) - cellA.arriveTick).toNat) ∧
      s.store.poolSound := ⟨by decide +kernel, pool_storeA⟩

theorem witness_SentCellReadsBack : (List.replicate 156 (0xA5 : Byte)).length = 156 := List.length_replicate

/-- A state with a command in front, whose stores, timebase and queues meet the invariants. -/
def waiting : State := { (feedA .running onAir) with pending := [.stationTick] }

/-- What the command in front of it leaves. -/
def ticked : State := { (feedA .running onAir) with tbu := { Tbu.powerUp with tickCount := 1 } }

theorem step_waiting : step waiting = .next ticked := rfl

theorem witness_StepsKeepStoresSound :
    (waiting.wf = true ∧ waiting.store.streamsSound ∧ waiting.store.poolSound) ∧ step waiting = .next ticked :=
  ⟨⟨by decide +kernel, sound_storeA, pool_storeA⟩, step_waiting⟩

theorem witness_StepsKeepItemsInRange :
    (waiting.tbu.inRange ∧ waiting.counters.inRange ∧ waiting.mlt.reportsInRange ∧ waiting.queuesInRange) ∧
      step waiting = .next ticked := by
  refine ⟨⟨⟨by decide, by decide, by decide, (fun _ h => nomatch h), by decide, by decide, (fun _ h => nomatch h), by decide, by decide,
    by decide⟩, ⟨by decide +kernel, by decide +kernel⟩, ⟨by decide, by decide⟩, by decide, by decide, fun h => absurd rfl h⟩,
    step_waiting⟩

theorem witness_StepsKeepNationalPortEnabled :
    ((waiting.port 0).state ≠ .down ∧ (waiting.port 0).settings.enable = true) ∧ step waiting = .next ticked :=
  ⟨by decide +kernel, step_waiting⟩

theorem witness_StepsCompleteRecordsAtLastOutcome :
    (waiting.wf = true ∧ waiting.settled) ∧ step waiting = .next ticked :=
  ⟨⟨by decide +kernel, settled_idle rfl rfl⟩, step_waiting⟩


end Sys2Proof.Tests
end

section
/-! SUPPORT. What the boundaries of the timebase do to the TBU, each said once: a slot boundary, a second boundary with and
without its epoch, and a second mark (R2, R3, R8, R15). -/

namespace Sys2Proof.Machine

/-! ### Instants -/

/-- TickCount in 1/65536 tick, as a number (R8). -/
theorem State.tickPos_toNat (s : State) : s.tickPos.toNat = s.tbu.tickCount.toNat * 65536 := by
  rw [State.tickPos, BitVec.toNat_append, Nat.shiftLeft_eq]
  exact Nat.or_zero _

theorem State.slotReached_iff (s : State) :
    s.slotReached = true ↔ (s.tickPos - s.tbu.slotPos).toNat < 65536 ∧ s.epochAtTick = false := by
  simp [State.slotReached]

theorem State.secondReached_iff (s : State) : s.secondReached = true ↔ s.tbu.tickCount = s.tbu.nextSecond := by
  simp [State.secondReached]

/-- With no epoch pending none is taken at any tick (R15). -/
theorem State.epochAtTick_of_no_epoch {s : State} (h : s.tbu.pendEpoch = none) : s.epochAtTick = false := by
  simp [State.epochAtTick, h]

/-- A pending epoch is taken at the tick of the second boundary (R15). -/
theorem State.epochAtTick_of_epoch {s : State} {v : BitVec 16} (hs : s.secondReached = true) (hv : s.tbu.pendEpoch = some v) :
    s.epochAtTick = true := by
  simp [State.epochAtTick, hs, hv]

/-- NextSecond lies a whole second ahead: no second boundary falls now (R2). -/
theorem State.secondReached_of_second_ahead {s : State}
    (h : s.tbu.nextSecond = s.tbu.tickCount + Config.ticksPerSecond) : s.secondReached = false := by
  simp only [State.secondReached, h, decide_eq_false_iff_not, Config.ticksPerSecond]
  bv_omega

/-! ### Slot boundaries (R8, R9) -/

@[simp] theorem State.openCycle_tbu (s : State) : s.openCycle.tbu = s.tbu := rfl

/-- The TBU at a slot boundary, whether or not it is a cycle boundary too (R8, R9). -/
theorem State.openSlot_tbu (s : State) : s.openSlot.tbu = s.tbu.nextSlot.nextIndex := by
  unfold State.openSlot
  simp only
  split <;> rfl

/-- The MLT's cell of a slot boundary leaves the TBU alone (R158). -/
theorem State.monitorSend_tbu (s : State) : s.monitorSend.tbu = s.tbu := by
  unfold State.monitorSend
  split
  · rfl
  · split <;> rfl

theorem State.slotPart_tbu (s : State) (p : SlotPart) : (s.slotPart p).tbu = s.tbu := by
  cases p with
  | feed f => exact (acts_slotPartFeed s f).tbu
  | monitor =>
    simp only [State.slotPart, State.slotPartMonitor]
    split
    · exact State.monitorSend_tbu _
    · rfl

theorem State.slotParts_tbu (s : State) (l : List SlotPart) : (s.slotParts l).tbu = s.tbu := by
  induction l generalizing s with
  | nil => rfl
  | cons p l ih => exact (ih _).trans (s.slotPart_tbu p)

theorem State.closeSlot_tbu (s : State) (pace : Pace) : (s.closeSlot pace).tbu = s.tbu := by
  cases pace with
  | whole => rw [State.closeSlot, (acts_closeCycle _ _).tbu, State.slotParts_tbu]
  | listed => rfl

/-- A slot boundary that has come changes the TBU as it is opened; the parties that take it leave the TBU alone (R8, R9). -/
theorem State.slotBoundary_tbu {s : State} (h : s.slotReached = true) (order : List SlotPart) (pace : Pace) :
    (s.slotBoundary order pace).tbu = s.tbu.nextSlot.nextIndex := by
  rw [State.slotBoundary, State.closeSlot_tbu, State.slotParts_tbu, State.meetSlot, if_pos h, State.openSlot_tbu]

@[simp] theorem Tbu.nextIndex_slotInt (t : Tbu) : t.nextIndex.slotInt = t.slotInt := by unfold Tbu.nextIndex; split <;> rfl
@[simp] theorem Tbu.nextIndex_slotFrac (t : Tbu) : t.nextIndex.slotFrac = t.slotFrac := by unfold Tbu.nextIndex; split <;> rfl
@[simp] theorem Tbu.nextIndex_pendSlotPeriod (t : Tbu) : t.nextIndex.pendSlotPeriod = t.pendSlotPeriod := by
  unfold Tbu.nextIndex; split <;> rfl
@[simp] theorem Tbu.nextIndex_slotPos (t : Tbu) : t.nextIndex.slotPos = t.slotPos := by unfold Tbu.nextIndex; split <;> rfl

/-- A pending slot period is the one in force from the next boundary on (R8). -/
theorem Tbu.period_of_pending {t : Tbu} {p : Nat × Nat} (h : t.pendSlotPeriod = some p) : t.period = p := by
  simp [Tbu.period, h]

/-! ### Second boundaries and epochs (R2, R15) -/

/-- The state with its next second boundary at a tick. The lemmas on it hold for any tick, so that no proof compares a tick
with the one a whole second after it. -/
def State.awaitSecond (s : State) (n : BitVec 48) : State := { s with tbu := { s.tbu with nextSecond := n } }

/-- At NextSecond the second boundary is opened, and the following one lies a second on (R2). -/
theorem State.secondBoundary_of_reached {s : State} (h : s.secondReached = true) (pace : SecondPace) :
    ∃ n, s.tbu.nextSecond + Config.ticksPerSecond = n ∧ s.secondBoundary pace = (s.awaitSecond n).openSecond pace := by
  refine ⟨_, rfl, ?_⟩
  rw [State.secondBoundary, if_pos h, State.awaitSecond]

theorem State.secondBoundary_of_not_reached {s : State} (h : s.secondReached = false) (pace : SecondPace) :
    s.secondBoundary pace = s := if_neg (by simp [h])

@[simp] theorem State.openEpoch_mlt (s : State) : s.openEpoch.mlt = s.mlt := by unfold State.openEpoch; split <;> rfl
@[simp] theorem State.openEpoch_heldCommits (s : State) : s.openEpoch.heldCommits = s.heldCommits := by
  unfold State.openEpoch; split <;> rfl

/-- The TBU at an epoch (R15). -/
theorem State.openEpoch_tbu {s : State} {v : BitVec 16} (h : s.tbu.pendEpoch = some v) :
    s.openEpoch.tbu = s.tbu.epochTaken v := by
  simp [State.openEpoch, h]

/-- A pending epoch is taken with the second boundary, wherever the counter transfer and the parties of its cycle boundary fall
(R15). -/
theorem State.openSecond_tbu_of_epoch {s : State} {v : BitVec 16} (h : s.tbu.pendEpoch = some v) (pace : SecondPace) :
    (s.openSecond pace).tbu = s.tbu.secondTaken.epochTaken v := by
  have hc : s.countSecond.openEpoch.tbu = s.tbu.secondTaken.epochTaken v := State.openEpoch_tbu h
  cases pace with
  | whole =>
    simp only [State.openSecond, h, Option.isSome_some, if_true]
    rw [State.transferPart_tbu, (acts_closeCycle _ _).tbu, hc]
  | transferFirst =>
    have ht : s.countSecond.transferPart.tbu = s.tbu.secondTaken := State.transferPart_tbu _
    rw [State.openSecond, State.openEpoch_tbu (by rw [ht]; exact h), ht]
  | epochFirst => rw [State.openSecond, State.transferPart_tbu, hc]

/-- The second boundary at NextSecond takes a pending epoch, and with it the slot period in force (R2, R15). -/
theorem State.secondBoundary_takes_epoch {s : State} {v : BitVec 16} (hs : s.secondReached = true)
    (hv : s.tbu.pendEpoch = some v) (pace : SecondPace) :
    (s.secondBoundary pace).tbu.cycleNo = v ∧ (s.secondBoundary pace).tbu.pendEpoch = none ∧
      (s.secondBoundary pace).tbu.slotInt = s.tbu.period.1 ∧ (s.secondBoundary pace).tbu.slotFrac = s.tbu.period.2 ∧
      (s.secondBoundary pace).tbu.pendSlotPeriod = none := by
  obtain ⟨n, -, opened⟩ := State.secondBoundary_of_reached hs pace
  have htbu : (s.secondBoundary pace).tbu = (s.awaitSecond n).tbu.secondTaken.epochTaken v := by
    rw [opened, State.openSecond_tbu_of_epoch (s := s.awaitSecond n) hv]
  rw [htbu]
  exact ⟨rfl, rfl, rfl, rfl, rfl⟩

/-- The second boundary at NextSecond, with no epoch pending, leaves the following one a whole second ahead (R2). -/
theorem State.secondBoundary_second_ahead {s : State} (hs : s.secondReached = true) (hv : s.tbu.pendEpoch = none)
    (pace : SecondPace) :
    (s.secondBoundary pace).tbu.nextSecond = (s.secondBoundary pace).tbu.tickCount + Config.ticksPerSecond := by
  obtain ⟨n, hn, opened⟩ := State.secondBoundary_of_reached hs pace
  have htbu : (s.secondBoundary pace).tbu = (s.awaitSecond n).tbu.secondTaken := by
    rw [opened, State.openSecond_of_no_epoch (s := s.awaitSecond n) hv, State.transferPart_tbu, State.countSecond_tbu]
  have hnext : (s.secondBoundary pace).tbu.nextSecond = n := by rw [htbu]; rfl
  have htick : (s.secondBoundary pace).tbu.tickCount = s.tbu.tickCount := by rw [htbu]; rfl
  rw [hnext, htick, ← hn, s.secondReached_iff.mp hs]

/-- The parties of an epoch's cycle boundary leave the TBU alone (R15). -/
theorem State.epochStep_tbu (s : State) (order : List CyclePart) (pace : Pace) :
    (s.epochStep order pace).tbu = s.meetEpoch.tbu :=
  (acts_closeCycle _ _).tbu.trans (acts_cycleParts _ _).tbu

theorem State.meetEpoch_of_epoch {s : State} {v : BitVec 16} (hs : s.secondReached = true) (hv : s.tbu.pendEpoch = some v) :
    s.meetEpoch = s.secondBoundary .epochFirst := if_pos (State.epochAtTick_of_epoch hs hv)

/-- No epoch is taken where no second boundary falls (R15). -/
theorem State.meetEpoch_of_not_reached {s : State} (h : s.secondReached = false) : s.meetEpoch = s :=
  if_neg (by simp [State.epochAtTick, h])

/-! ### What a second boundary hands to the MLT (R166) -/

theorem State.autoTransfer_responses (s : State) : s.autoTransfer.mlt.responses = s.mlt.responses :=
  (moves_handReport _ _).responses

theorem State.autoTransfer_heldCommits (s : State) : s.autoTransfer.heldCommits = s.heldCommits :=
  (moves_handReport _ _).heldCommits

/-- A counter transfer places no response (R166). -/
theorem State.transferPart_responses (s : State) : s.transferPart.mlt.responses = s.mlt.responses := by
  unfold State.transferPart
  split
  · exact s.autoTransfer_responses
  · rfl

theorem State.transferPart_heldCommits (s : State) : s.transferPart.heldCommits = s.heldCommits := by
  unfold State.transferPart
  split
  · exact s.autoTransfer_heldCommits
  · rfl

/-- A second boundary and its epoch place no response (R14, R15). -/
theorem State.openSecond_epochFirst_responses (s : State) : (s.openSecond .epochFirst).mlt.responses = s.mlt.responses := by
  rw [State.openSecond, State.transferPart_responses, State.openEpoch_mlt]
  rfl

theorem State.openSecond_epochFirst_heldCommits (s : State) : (s.openSecond .epochFirst).heldCommits = s.heldCommits := by
  rw [State.openSecond, State.transferPart_heldCommits, State.openEpoch_heldCommits]
  rfl

/-- Where no counter period ends, a second boundary with its epoch only counts down in the MLT: no report is handed (R14, R166). -/
theorem State.openSecond_epochFirst_mlt {s : State} (h1 : s.mlt.secsLeft ≠ some 1) (h0 : s.mlt.secsLeft ≠ some 0) :
    (s.openSecond .epochFirst).mlt = s.mlt.countSecond := by
  have quiet : s.countSecond.openEpoch.mlt.secsLeft ≠ some 0 := by
    rw [State.openEpoch_mlt, State.countSecond_mlt, Ne, Mlt.countSecond_ends]
    exact not_or.mpr ⟨h1, h0⟩
  rw [State.openSecond, State.transferPart_quiet quiet, State.openEpoch_mlt, State.countSecond_mlt]

/-! ### Second marks (R3 to R6) -/

@[simp] theorem State.setRef_tbu (s : State) (r : RefState) : (s.setRef r).tbu = { s.tbu with refState := r } :=
  (moves_handReport _ _).tbu

@[simp] theorem State.endRun_tbu (s : State) : s.endRun.tbu = { s.tbu with relockRun := 0, lastMark := none } := rfl

/-- No second boundary was taken in the 64 ticks before the mark, so one falls at it (R3). -/
theorem Tbu.boundaryAtMark_iff (t : Tbu) :
    t.boundaryAtMark = true ↔ ∀ l, t.lastSecond = some l → 64 < (t.tickCount - l).toNat := by
  unfold Tbu.boundaryAtMark
  cases t.lastSecond with
  | none => simp
  | some l =>
    rw [decide_eq_true_iff]
    exact ⟨fun h _ e => Option.some.inj e ▸ h, fun h => h l rfl⟩

/-- In LOCKED a mark at ExpMark re-phases (R5). -/
theorem Tbu.markInWindow_at_expMark {t : Tbu} (h : t.expMark = some t.tickCount) : t.markInWindow = true := by
  simp [Tbu.markInWindow, h, Config.markWindow]

/-- A mark a whole second after LastMark is well spaced (R6). -/
theorem Tbu.wellSpaced_second_after {t : Tbu} (h : t.lastMark = some (t.tickCount - 16384000)) : t.wellSpaced = true := by
  simp [Tbu.wellSpaced, h, Config.markWindow, Config.ticksPerSecond]

/-- A re-phase with a boundary at the mark takes a pending epoch (R3, R15). -/
theorem State.rephase_takes_epoch {s : State} {v : BitVec 16} (hb : s.tbu.boundaryAtMark = true)
    (hv : s.tbu.pendEpoch = some v) (pace : SecondPace) :
    (s.rephase pace).tbu.cycleNo = v ∧ (s.rephase pace).tbu.pendEpoch = none := by
  obtain ⟨n, hn⟩ : ∃ n, s.tbu.afterMark = n := ⟨_, rfl⟩
  simp only [State.rephase, hn, hb, if_true]
  rw [State.openSecond_tbu_of_epoch (v := v)]
  · exact ⟨rfl, rfl⟩
  · exact hv

/-- A mark that re-phases, with a boundary at it, takes a pending epoch whatever RefState is (R4 to R6, R15). -/
theorem State.judgeMark_takes_epoch {s : State} {v : BitVec 16} (hr : s.tbu.markRephases = true)
    (hb : s.tbu.boundaryAtMark = true) (hv : s.tbu.pendEpoch = some v) (pace : SecondPace) :
    (s.judgeMark pace).tbu.cycleNo = v ∧ (s.judgeMark pace).tbu.pendEpoch = none := by
  unfold State.judgeMark
  cases href : s.tbu.refState with
  | free => exact State.rephase_takes_epoch (by rw [State.setRef_tbu]; exact hb) (by rw [State.setRef_tbu]; exact hv) pace
  | locked =>
    have hw : s.tbu.markInWindow = true := by simpa [Tbu.markRephases, href] using hr
    simp only [hw, if_true]
    exact State.rephase_takes_epoch hb hv pace
  | holdover =>
    obtain ⟨hrun, hspaced⟩ : 2 ≤ s.tbu.relockRun ∧ s.tbu.wellSpaced = true := by
      simpa [Tbu.markRephases, href] using hr
    simp only [State.holdoverMark]
    rw [if_neg (by omega), if_pos hspaced, if_neg (by omega)]
    exact State.rephase_takes_epoch (by rw [State.endRun_tbu, State.setRef_tbu]; exact hb)
      (by rw [State.endRun_tbu, State.setRef_tbu]; exact hv) pace

/-- A mark applies at a tick whose slot boundary has not passed an epoch (log entry 20). -/
theorem State.secondMark_of_not_passed {s : State} (h : s.due.epochPassed = false) (pace : SecondPace) :
    s.secondMark pace = s.judgeMark pace := if_neg (by simp [State.markPassed, h])

end Sys2Proof.Machine
end

section
/-! SUPPORT. The requests of the timebase: what each leaves and answers, and that a request answered at once is answered with
that (R10, R14, R16, R150). -/

namespace Sys2Proof.Machine

/-- A request that REX can serve at once, and that does not touch the response queue, is answered at once (R149, R150). -/
theorem exec_answered {c : Instr} {q : Taken} {s t : State} {res : Result} {l : List Byte} (hc : takenBy c = some q)
    (hr : s.ready) (hj : s.judgeRequest q = (t, some (res, l))) (ht : t.mlt.responses = s.mlt.responses) :
    exec c s = .next (t.placeResponse (answerOf q.tag q.kind res l)) := by
  have ⟨_, _, _, room⟩ := hr
  rw [exec_ready hc hr, State.serve_placed hj (by rw [ht]; exact room)]

/-- A 16-bit value has no upper bound to be clamped to (R10). -/
theorem clampTo_word (lo : Nat) (x : BitVec 16) : clampTo lo 65535 x.toNat = max lo x.toNat := by
  have := x.isLt
  unfold clampTo
  split
  · omega
  · rw [if_neg (by omega)]; omega

/-- SET-SLOT-PERIOD in any state (R10). -/
theorem State.judge_setSlotPeriod (s : State) (tag i f : BitVec 16) :
    s.judgeRequest { tag := tag, kind := 0x10, request := .setSlotPeriod i f } =
      ({ s with tbu := { s.tbu with pendSlotPeriod := some (max 64 i.toNat, f.toNat) } },
        some (if i.toNat < 64 then .clamped else .ok, [])) := by
  have kept : max 64 i.toNat = i.toNat ↔ ¬ i.toNat < 64 := by omega
  rw [State.judgeRequest_wellFormed rfl]
  simp only [State.applyRequest, State.applySetSlotPeriod, answered, clampTo_word, kept, ite_not]

/-- SET-EPOCH in any state (R14). -/
theorem State.judge_setEpoch (s : State) (tag v : BitVec 16) :
    s.judgeRequest { tag := tag, kind := 0x12, request := .setEpoch v } =
      ({ s with tbu := { s.tbu with pendEpoch := some v } }, some (.ok, [])) := rfl

/-- READ-TIMEBASE in any state (R16). -/
theorem State.judge_readTimebase (s : State) (tag : BitVec 16) :
    s.judgeRequest { tag := tag, kind := 0x13, request := .readTimebase } = (s, some (.ok, s.tbu.contents)) := rfl

/-- SOFT-RESET in any state (R154). -/
theorem State.judge_softReset (s : State) (tag : BitVec 16) :
    s.judgeRequest { tag := tag, kind := 0x71, request := .softReset } = (s.softReset, some (.ok, [])) := rfl

@[simp] theorem State.softReset_tbu (s : State) : s.softReset.tbu = s.tbu := rfl
@[simp] theorem State.softReset_responses (s : State) : s.softReset.mlt.responses = s.mlt.responses := rfl

/-- A soft reset leaves every feed DISABLED (R102, R154). -/
theorem State.softReset_feed (s : State) (f : FeedId) : s.softReset.feed f = Feed.powerUp := by
  simp [State.feed, State.softReset, State.powerUp, Vector.get_eq_getElem]

theorem bytesOf_length (n v : Nat) : (bytesOf n v).length = n := by
  induction n with
  | zero => rfl
  | succ n ih => simp [bytesOf, ih]

/-- The last seven bytes of READ-TIMEBASE: CycleNo, SlotIndex and PendEpoch (R16, R179). -/
theorem Tbu.contents_drop (t : Tbu) :
    t.contents.drop (t.contents.length - 7) =
      e2 t.cycleNo.toNat ++ e2 t.slotIndex ++ eOpt 2 (t.pendEpoch.map (fun v => e2 v.toNat)) := by
  have seven : (e2 t.cycleNo.toNat ++ (e2 t.slotIndex ++ eOpt 2 (t.pendEpoch.map (fun v => e2 v.toNat)))).length = 7 := by
    cases t.pendEpoch <;> simp [e1, e2, eOpt, bytesOf_length]
  unfold Tbu.contents
  rw [List.append_assoc, List.append_assoc, List.length_append, seven, Nat.add_sub_cancel, List.drop_left, List.append_assoc]

end Sys2Proof.Machine
end

section
/-! PROOFS. The statements on the TBU's power-up and on the pending slot period and epoch. -/

namespace Sys2Proof.Machine

/-- The first slot boundary after power-up falls at tick 1049 and at no tick before it (R8, R17). -/
theorem slotReached_after_powerUp {s : State} {n : BitVec 48} (hs : s.tbu = { Tbu.powerUp with tickCount := n })
    (hn : n ≤ 1049) : s.slotReached = true ↔ n = 1049 := by
  have pos : s.tickPos.toNat = n.toNat * 65536 := by rw [State.tickPos_toNat, hs]
  have slot : s.tbu.slotPos = 68719477 := by rw [hs]; rfl
  have quiet : s.epochAtTick = false := State.epochAtTick_of_no_epoch (by rw [hs]; rfl)
  rw [State.slotReached_iff, slot]
  simp only [quiet, and_true]
  bv_omega

/-- Settles O3: power-up's values are read off, and a soft reset writes every block but the TBU. -/
theorem timebaseAtPowerUpAndSoftReset : Obligations.TimebaseAtPowerUpAndSoftReset := by
  unfold Obligations.TimebaseAtPowerUpAndSoftReset
  refine ⟨fun straps s => ⟨_, rfl, rfl, fun n hn => slotReached_after_powerUp rfl hn⟩, fun s => ⟨s.softReset_tbu, fun f => ?_⟩,
    fun tag s hr => ⟨_, exec_answered rfl hr (s.judge_softReset tag) s.softReset_responses, ?_⟩⟩
  · rw [State.softReset_feed]
    rfl
  · rw [State.placeResponse_tbu, State.softReset_tbu]

/-- Settles O37: the request writes PendSlotPeriod, and both boundaries that take a slot period take the pending one. -/
theorem setSlotPeriodPending : Obligations.SetSlotPeriodPending := by
  unfold Obligations.SetSlotPeriodPending
  refine ⟨fun tag i f s hr => exec_answered rfl hr (s.judge_setSlotPeriod tag i f) rfl,
    fun tag i f s => s.judge_setSlotPeriod tag i f, fun s p order pace hs hp => ⟨_, rfl, ?_⟩,
    fun s p v order pace hs hv hp => ⟨_, rfl, ?_⟩⟩
  · rw [State.slotBoundary_tbu hs]
    simp [Tbu.nextSlot, Tbu.advance, Tbu.period_of_pending hp]
  · have reached := s.secondReached_iff.mpr hs
    obtain ⟨-, -, hint, hfrac, hpend⟩ := State.secondBoundary_takes_epoch reached hv .epochFirst
    rw [Tbu.period_of_pending hp] at hint hfrac
    rw [State.epochStep_tbu, State.meetEpoch_of_epoch reached hv]
    exact ⟨hint, hfrac, hpend⟩

/-- A pending epoch is taken at NextSecond by either command, and hands the MLT nothing of its own (R14, R15). -/
theorem epoch_taken_at_nextSecond {s : State} {v : BitVec 16} (hv : s.tbu.pendEpoch = some v)
    (hs : s.tbu.tickCount = s.tbu.nextSecond) :
    (∀ pace : SecondPace, ∃ t, exec (.secondBoundary pace) s = .next t ∧ t.tbu.cycleNo = v ∧ t.tbu.pendEpoch = none) ∧
      ∃ t, exec (.epoch [] .listed) s = .next t ∧ t.tbu.cycleNo = v ∧ t.tbu.pendEpoch = none ∧
        t.mlt.responses = s.mlt.responses ∧ t.heldCommits = s.heldCommits ∧
        (s.mlt.secsLeft ≠ some 1 → s.mlt.secsLeft ≠ some 0 → t.mlt = s.mlt.countSecond) := by
  have reached := s.secondReached_iff.mpr hs
  refine ⟨fun pace => ?_, s.secondBoundary .epochFirst, ?_, ?_⟩
  · obtain ⟨hcycle, hpend, -⟩ := State.secondBoundary_takes_epoch reached hv pace
    exact ⟨_, rfl, hcycle, hpend⟩
  · rw [← State.meetEpoch_of_epoch reached hv]
    rfl
  · obtain ⟨hcycle, hpend, -⟩ := State.secondBoundary_takes_epoch reached hv .epochFirst
    refine ⟨hcycle, hpend, ?_⟩
    obtain ⟨n, -, opened⟩ := State.secondBoundary_of_reached reached .epochFirst
    rw [opened]
    exact ⟨State.openSecond_epochFirst_responses _, State.openSecond_epochFirst_heldCommits _,
      State.openSecond_epochFirst_mlt (s := s.awaitSecond n)⟩

/-- A mark re-phases in FREE, at ExpMark in LOCKED, and as the third of a run a whole second apart in HOLDOVER (R4 to R6). -/
theorem markRephases_of_cases {t : Tbu}
    (h : t.refState = .free ∨ (t.refState = .locked ∧ t.expMark = some t.tickCount) ∨
      (t.refState = .holdover ∧ t.relockRun = 2 ∧ t.lastMark = some (t.tickCount - 16384000))) : t.markRephases = true := by
  obtain href | ⟨href, hexp⟩ | ⟨href, hrun, hlast⟩ := h
  · simp [Tbu.markRephases, href]
  · simp [Tbu.markRephases, href, Tbu.markInWindow_at_expMark hexp]
  · simp [Tbu.markRephases, href, hrun, Tbu.wellSpaced_second_after hlast]

/-- Settles O39: the request writes PendEpoch; a second boundary of either kind takes it, and one already taken leaves the next a
whole second ahead. -/
theorem setEpochPending : Obligations.SetEpochPending := by
  unfold Obligations.SetEpochPending
  refine ⟨fun tag v s hr => exec_answered rfl hr (s.judge_setEpoch tag v) rfl, fun tag v s => s.judge_setEpoch tag v,
    fun s v hv hs => epoch_taken_at_nextSecond hv hs, fun s v hv hmark hlast hpass pace => ⟨_, rfl, ?_⟩,
    fun tag s => ⟨_, congrArg Prod.snd (s.judge_readTimebase tag), ?_⟩, fun s v pace hv hs => ⟨_, rfl, ?_⟩,
    fun s => by rw [State.softReset_tbu]⟩
  · rw [State.secondMark_of_not_passed hpass]
    exact State.judgeMark_takes_epoch (markRephases_of_cases hmark) (s.tbu.boundaryAtMark_iff.mpr hlast) hv pace
  · rw [Tbu.contents_drop]
    cases s.tbu.pendEpoch <;> rfl
  · have ahead := State.secondBoundary_second_ahead (s.secondReached_iff.mpr hs) hv pace
    generalize s.secondBoundary pace = t at ahead
    have quiet : ({ t with tbu := { t.tbu with pendEpoch := some v } } : State).secondReached = false :=
      State.secondReached_of_second_ahead ahead
    exact ⟨congrArg _ (State.meetEpoch_of_not_reached quiet),
      fun pace' => congrArg _ (State.secondBoundary_of_not_reached quiet pace')⟩

end Sys2Proof.Machine
end

section
/-! SUPPORT. The requests that read: which index fields are in range, what each of the seven answers (R157), and where a request
goes that REX cannot serve at once (R148). -/

namespace Sys2Proof.Machine

/-! ### Index fields -/

theorem flagOf_isSome_iff (b : BitVec 8) : (flagOf b).isSome ↔ b.toNat ≤ 1 := by
  unfold flagOf
  split
  · next h => simp [h]
  · split
    · next h => simp [h]
    · next h0 h1 => simp only [Option.isSome_none, Bool.false_eq_true, false_iff]; bv_omega

theorem feedOf_isSome_iff (b : BitVec 8) : (feedOf b).isSome ↔ b.toNat ≤ 7 := by
  simp [feedOf, Nat.lt_succ_iff]

theorem portOf_isSome_iff (b : BitVec 8) : (portOf b).isSome ↔ b.toNat ≤ 12 := by
  simp [portOf, Nat.lt_succ_iff]

theorem laneOf_isSome_iff (b : BitVec 8) : (laneOf b).isSome ↔ b.toNat ≤ 3 := by
  simp [laneOf, Nat.lt_succ_iff]

theorem entryOf_isSome_iff (b : BitVec 8) : (entryOf b).isSome ↔ b.toNat ≤ 63 := by
  simp [entryOf, Config.mapEntries, Nat.lt_succ_iff]

theorem recordOf_isSome_iff (w : BitVec 16) : (recordOf w).isSome ↔ w.toNat ≤ 1023 := by
  simp [recordOf, Config.spliceRecords, Nat.lt_succ_iff]

/-! ### The answers of the seven reads (R157) -/

/-- A read's answer: the state as it was, with OK where the index fields are in range, and else the refusal with RANGE. -/
def State.AnswersRead (s : State) (inRange : Prop) (a : Answered) : Prop :=
  (inRange ∧ ∃ l, a = (s, .ok, l)) ∨ (¬ inRange ∧ a = s.refuse .range)

/-- A read's answer, once its request is judged, as R157 words it. -/
theorem State.AnswersRead.result {s : State} {inRange : Prop} {a : Answered} (h : s.AnswersRead inRange a) :
    ∃ res l, answered a = (s, some (res, l)) ∧ (inRange → res = .ok) ∧ (¬ inRange → res = .range) := by
  obtain ⟨good, l, rfl⟩ | ⟨bad, rfl⟩ := h
  · exact ⟨.ok, l, rfl, fun _ => rfl, fun bad => absurd good bad⟩
  · exact ⟨.range, [], rfl, fun good => absurd good bad, fun _ => rfl⟩

theorem State.applyReadTimebase_answers (s : State) : s.AnswersRead True s.applyReadTimebase :=
  .inl ⟨trivial, _, rfl⟩

theorem State.applyReadPort_answers (s : State) (p : BitVec 8) : s.AnswersRead (p.toNat ≤ 12) (s.applyReadPort p) := by
  rw [← portOf_isSome_iff]
  unfold State.applyReadPort
  cases portOf p with
  | some p => exact .inl ⟨rfl, _, rfl⟩
  | none => exact .inr ⟨Bool.false_ne_true, rfl⟩

theorem State.applyReadMapEntry_answers (s : State) (f b e : BitVec 8) :
    s.AnswersRead (f.toNat ≤ 7 ∧ b.toNat ≤ 1 ∧ e.toNat ≤ 63) (s.applyReadMapEntry f b e) := by
  rw [← feedOf_isSome_iff, ← flagOf_isSome_iff, ← entryOf_isSome_iff]
  unfold State.applyReadMapEntry
  cases feedOf f with
  | none => exact .inr ⟨fun ⟨h, _, _⟩ => Bool.false_ne_true h, rfl⟩
  | some f =>
    cases flagOf b with
    | none => exact .inr ⟨fun ⟨_, h, _⟩ => Bool.false_ne_true h, rfl⟩
    | some b =>
      cases entryOf e with
      | none => exact .inr ⟨fun ⟨_, _, h⟩ => Bool.false_ne_true h, rfl⟩
      | some e => exact .inl ⟨⟨rfl, rfl, rfl⟩, _, rfl⟩

theorem State.applyReadFeed_answers (s : State) (f e : BitVec 8) :
    s.AnswersRead (f.toNat ≤ 7 ∧ e.toNat ≤ 63) (s.applyReadFeed f e) := by
  rw [← feedOf_isSome_iff, ← entryOf_isSome_iff]
  unfold State.applyReadFeed
  cases feedOf f with
  | none => exact .inr ⟨fun ⟨h, _⟩ => Bool.false_ne_true h, rfl⟩
  | some f =>
    cases entryOf e with
    | none => exact .inr ⟨fun ⟨_, h⟩ => Bool.false_ne_true h, rfl⟩
    | some e => exact .inl ⟨⟨rfl, rfl⟩, _, rfl⟩

theorem State.applyReadSpliceRecord_answers (s : State) (r : BitVec 16) :
    s.AnswersRead (r.toNat ≤ 1023) (s.applyReadSpliceRecord r) := by
  rw [← recordOf_isSome_iff]
  unfold State.applyReadSpliceRecord
  cases recordOf r with
  | some r => exact .inl ⟨rfl, _, rfl⟩
  | none => exact .inr ⟨Bool.false_ne_true, rfl⟩

theorem State.applyReadLane_answers (s : State) (l : BitVec 8) : s.AnswersRead (l.toNat ≤ 3) (s.applyReadLane l) := by
  rw [← laneOf_isSome_iff]
  unfold State.applyReadLane
  cases laneOf l with
  | some l => exact .inl ⟨rfl, _, rfl⟩
  | none => exact .inr ⟨Bool.false_ne_true, rfl⟩

theorem State.applyReadCounters_answers (s : State) (g : BitVec 8) : s.AnswersRead (g.toNat ≤ 1) (s.applyReadCounters g) := by
  rw [← flagOf_isSome_iff]
  unfold State.applyReadCounters
  cases flagOf g with
  | some g => exact .inl ⟨rfl, _, rfl⟩
  | none => exact .inr ⟨Bool.false_ne_true, rfl⟩

/-! ### Requests that REX cannot serve at once (R147, R148, R156) -/

theorem State.hears_iff (s : State) :
    s.hears = true ↔ s.mgmt.wake = .awake ∧ ((s.port 0).state = .live ∨ (s.port 0).state = .absent) := by
  simp [State.hears]

/-- A request heard while REX holds a response waits in the intake queue, if that has room. -/
theorem exec_queued {c : Instr} {q : Taken} {s : State} (hc : takenBy c = some q) (hs : s.hears = true)
    (held : s.mgmt.heldResponse.isSome) (room : s.mgmt.intake.length < 8) :
    exec c s = .next { s with mgmt := { s.mgmt with intake := s.mgmt.intake ++ [q] } } := by
  rw [exec_heard hc hs, State.takeIn_holding held room]

/-- A request heard with the intake queue full is answered OVERRUN, if the response queue has room. -/
theorem exec_overrun {c : Instr} {q : Taken} {s : State} (hc : takenBy c = some q) (hs : s.hears = true)
    (full : 8 ≤ s.mgmt.intake.length) (room : s.mlt.responses.length < 16) :
    exec c s = .next (s.placeResponse (answerOf q.tag q.kind .overrun [])) := by
  have free : s.responseRoom = true := decide_eq_true room
  rw [exec_heard hc hs, State.takeIn_overrun full, State.overrun, if_pos free]
  rfl

end Sys2Proof.Machine
end

section
/-! PROOFS. The statement on the requests that read. -/

namespace Sys2Proof.Machine

/-- Settles O40: each read's own rule answers with the state as it was, and the path of a request is that of every request. -/
theorem readsChangeNothing : Obligations.ReadsChangeNothing := by
  unfold Obligations.ReadsChangeNothing
  intro read
  have reads : ∀ {c : Instr} {q : Taken} {inRange : Prop} {a : State → Answered}, (∀ s : State, s.AnswersRead inRange (a s)) →
      takenBy c = some q → (∀ s : State, s.judgeRequest q = answered (a s)) → read c inRange := by
    intro c q inRange a ha hc hj
    refine ⟨q, hc, fun s => ?_⟩
    obtain ⟨res, l, hres, hgood, hbad⟩ := (ha s).result
    have judged : s.judgeRequest q = (s, some (res, l)) := (hj s).trans hres
    exact ⟨congrArg Prod.fst judged,
      fun ready => ⟨res, l, exec_answered hc ready judged rfl, congrArg Prod.snd judged, hgood, hbad⟩,
      fun hears => exec_queued hc (s.hears_iff.mpr hears), fun hears => exec_overrun hc (s.hears_iff.mpr hears)⟩
  exact fun tag a b e r =>
    ⟨reads (fun s => s.applyReadTimebase_answers) rfl fun _ => rfl,
      reads (fun s => s.applyReadPort_answers a) rfl fun _ => rfl,
      reads (fun s => s.applyReadMapEntry_answers a b e) rfl fun _ => rfl,
      reads (fun s => s.applyReadFeed_answers a e) rfl fun _ => rfl,
      reads (fun s => s.applyReadSpliceRecord_answers r) rfl fun _ => rfl,
      reads (fun s => s.applyReadLane_answers a) rfl fun _ => rfl,
      reads (fun s => s.applyReadCounters_answers b) rfl fun _ => rfl⟩

end Sys2Proof.Machine
end

section
/-! SUPPORT. A counter transfer asked for by LATCH-COUNTERS: what the transfer leaves, and how its instant stands in the answer
(R165, R167, R179). -/

namespace Sys2Proof.Machine

@[simp] theorem State.transfer_responses (s : State) : s.transfer.mlt.responses = s.mlt.responses := rfl

/-- After a transfer the contents are its number and its instant, marked as present (R165, R179). -/
theorem State.transfer_contents (s : State) :
    s.transfer.mlt.transferContents =
      bytesOf 2 (s.mlt.transferNo + 1).toNat ++ [1] ++ bytesOf 4 s.tbu.secNo.toNat ++ bytesOf 2 s.tbu.cycleNo.toNat := by
  rw [List.append_assoc, List.append_assoc]
  rfl

/-- LATCH-COUNTERS in MANUAL: the transfer is made, and its number and instant are the answer (R167). -/
theorem State.applyLatchCounters_manual {s : State} (h : s.mlt.counterMode = .manual) :
    s.applyLatchCounters = (s.transfer, .ok, s.transfer.mlt.transferContents) := if_neg (by simp [h])

/-- LATCH-COUNTERS in AUTO: refused, and no transfer is made (R167). -/
theorem State.applyLatchCounters_auto {s : State} (h : s.mlt.counterMode = .auto) :
    s.applyLatchCounters = (s, .state, []) := if_pos h

/-- LATCH-COUNTERS is judged by its own rule, in any state (R151, R167). -/
theorem State.judge_latchCounters (s : State) (tag : BitVec 16) :
    s.judgeRequest { tag := tag, kind := 0x61, request := .latchCounters } = answered s.applyLatchCounters := rfl

end Sys2Proof.Machine
end

section
/-! PROOFS. The statement on LATCH-COUNTERS. -/

namespace Sys2Proof.Machine

/-- Settles O15: in either mode the request is answered at once, in MANUAL from the state that the transfer leaves. -/
theorem latchCountersTransfersInManual : Obligations.LatchCountersTransfersInManual := by
  unfold Obligations.LatchCountersTransfersInManual
  intro tag s ready
  have judged := s.judge_latchCounters tag
  constructor
  · intro manual
    rw [State.applyLatchCounters_manual manual] at judged
    rw [← s.transfer_contents]
    exact exec_answered rfl ready judged s.transfer_responses
  · intro auto
    rw [State.applyLatchCounters_auto auto] at judged
    exact exec_answered rfl ready judged rfl

end Sys2Proof.Machine
end

section
/-! SUPPORT. What a pattern cell carries, bit by bit: bytes spell their bits back, and an inverted first bit is the one mismatch
(R171, R172, R174). -/

namespace Sys2Proof.Machine

/-! ### Bits and bytes (section 11) -/

theorem bitsOf_cons (b : Byte) (bs : List Byte) : bitsOf (b :: bs) = bitsOf [b] ++ bitsOf bs := by simp [bitsOf]

theorem bitsOf_byteOfBits : ∀ {bits : List Bool}, bits.length = 8 → bitsOf [byteOfBits bits] = bits
  | [a, b, c, d, e, f, g, h], _ => by revert a b c d e f g h; decide

theorem bitsOf_bytesOfBits {n : Nat} {bits : List Bool} (h : bits.length = 8 * n) : bitsOf (bytesOfBits n bits) = bits := by
  induction n generalizing bits with
  | zero => rw [List.length_eq_zero_iff.mp h]; rfl
  | succ n ih =>
    have first : (bits.take 8).length = 8 := by rw [List.length_take]; omega
    have rest : (bits.drop 8).length = 8 * n := by rw [List.length_drop]; omega
    rw [bytesOfBits, bitsOf_cons, bitsOf_byteOfBits first, ih rest, List.take_append_drop]

theorem bytesOfBits_length (n : Nat) (bits : List Bool) : (bytesOfBits n bits).length = n := by
  induction n generalizing bits with
  | zero => rfl
  | succ n ih => rw [bytesOfBits, List.length_cons, ih]

theorem padTo_of_length {n : Nat} {bs : List Byte} (h : bs.length = n) : padTo n bs = bs := by
  rw [padTo, List.take_left' h]

/-! ### Pattern cells (R171, R172) -/

theorem genRun_length (n : Nat) (g : BitVec 17) : (genRun n g).1.length = n := by
  induction n generalizing g with
  | zero => rfl
  | succ n ih => rw [genRun, List.length_cons, ih]

theorem invertFirst_length (bits : List Bool) : (invertFirst bits).length = bits.length := by cases bits <;> rfl

/-- A cell sent with a whole payload of bits carries those bits (R172, R178). -/
theorem bitsOf_sentCell {bits : List Bool} (h : bits.length = Config.patternBits) (kind : Kind) (tag : Tag) (cont : BitVec 4) :
    bitsOf (sentCell kind tag cont (bytesOfBits Config.payloadBytes bits)).payload = bits := by
  rw [sentCell, padTo_of_length (bytesOfBits_length _ _)]
  exact bitsOf_bytesOfBits h

/-- What a pattern cell makes of its feed (R172). -/
theorem State.sendPattern_feed (s : State) (f : FeedId) :
    (s.sendPattern f).feed f =
      { s.feed f with
        gen := (genRun Config.patternBits (s.feed f).gen).2, patCont := (s.feed f).patCont + 1, injectPending := false,
        sent := some (sentCell .programme (s.feed f).testTag (s.feed f).patCont
          (bytesOfBits Config.payloadBytes
            (if (s.feed f).injectPending then invertFirst (genRun Config.patternBits (s.feed f).gen).1
              else (genRun Config.patternBits (s.feed f).gen).1))) } :=
  s.setFeed_feed f _

/-! ### The inverted bit (R174) -/

theorem invertFirst_head? (bits : List Bool) : (invertFirst bits)[0]? = bits[0]?.map not := by cases bits <;> rfl

theorem invertFirst_drop_one (bits : List Bool) : (invertFirst bits).drop 1 = bits.drop 1 := by cases bits <;> rfl

theorem mismatches_self (bits : List Bool) : mismatches bits bits = 0 := by
  induction bits with
  | nil => rfl
  | cons b bits ih => rw [mismatches, ih, bne_self_eq_false]; rfl

theorem mismatches_invertFirst {bits : List Bool} (h : bits ≠ []) : mismatches bits (invertFirst bits) = 1 := by
  cases bits with
  | nil => exact absurd rfl h
  | cons b bits => rw [invertFirst, mismatches, mismatches_self]; cases b <;> rfl

/-! ### The request, and the leaving of TEST (R85, R174) -/

theorem feedOf_eq_some {b : BitVec 8} {f : FeedId} (h : b.toNat = f.val) : feedOf b = some f := by
  have inRange : b.toNat < 8 := by rw [h]; exact f.isLt
  rw [feedOf, dif_pos inRange]
  exact congrArg some (Fin.ext h)

theorem feedOf_eq_none {b : BitVec 8} (h : 7 < b.toNat) : feedOf b = none := dif_neg (by omega)

theorem State.judge_injectPatternError (s : State) (tag : BitVec 16) (feed : BitVec 8) :
    s.judgeRequest { tag := tag, kind := 0x42, request := .injectPatternError feed } = answered (s.applyInject feed) := rfl

theorem State.applyInject_outOfRange (s : State) {feed : BitVec 8} (h : 7 < feed.toNat) :
    s.applyInject feed = s.refuse .range := by
  rw [State.applyInject, feedOf_eq_none h]

theorem State.applyInject_notInTest {s : State} {feed : BitVec 8} {f : FeedId} (hf : feed.toNat = f.val)
    (h : (s.feed f).state ≠ .test) : s.applyInject feed = s.refuse .state := by
  rw [State.applyInject, feedOf_eq_some hf]
  exact if_neg h

theorem State.applyInject_inTest {s : State} {feed : BitVec 8} {f : FeedId} (hf : feed.toNat = f.val)
    (h : (s.feed f).state = .test) :
    s.applyInject feed = (s.setFeed f { s.feed f with injectPending := true }, .ok, []) := by
  rw [State.applyInject, feedOf_eq_some hf]
  exact if_pos h

theorem State.leaveTest_feed (s : State) (f : FeedId) :
    (s.leaveTest f).feed f = { s.feed f with state := .running, pendMode := .none, injectPending := false } := by
  rw [State.leaveTest, (moves_subscribeEntries _ f).feed, State.setFeed_feed]

end Sys2Proof.Machine
end

section
/-! PROOFS. The statement on INJECT-PATTERN-ERROR. -/

namespace Sys2Proof.Machine

/-- The cell sent with InjectPending differs from the one sent without it in its first bit alone (R174). -/
theorem State.sendPattern_inverts {s : State} {f : FeedId} (h : (s.feed f).injectPending = true) :
    ∃ a b : Cell, ((s.sendPattern f).feed f).sent = some a ∧
      (((s.setFeed f { s.feed f with injectPending := false }).sendPattern f).feed f).sent = some b ∧ a.hdr = b.hdr ∧
      (bitsOf a.payload)[0]? = (bitsOf b.payload)[0]?.map not ∧ (bitsOf a.payload).drop 1 = (bitsOf b.payload).drop 1 ∧
      mismatches (bitsOf b.payload) (bitsOf a.payload) = 1 := by
  have whole := genRun_length Config.patternBits (s.feed f).gen
  have nonempty : (genRun Config.patternBits (s.feed f).gen).1 ≠ [] := List.ne_nil_of_length_pos (by rw [whole]; decide)
  rw [State.sendPattern_feed, State.sendPattern_feed, State.setFeed_feed, if_pos h, if_neg Bool.false_ne_true]
  refine ⟨_, _, rfl, rfl, rfl, ?_⟩
  rw [bitsOf_sentCell whole, bitsOf_sentCell ((invertFirst_length _).trans whole)]
  exact ⟨invertFirst_head? _, invertFirst_drop_one _, mismatches_invertFirst nonempty⟩

/-- Settles O47: the request by the feed it names, the pattern cell with its inverted bit, and the flag cleared by the leaving of
TEST. -/
theorem injectPatternErrorInTest : Obligations.InjectPatternErrorInTest := by
  unfold Obligations.InjectPatternErrorInTest
  refine ⟨fun tag feed s ready => ?_, fun s f => ?_, fun s f => by rw [State.leaveTest_feed]⟩
  · have judged := s.judge_injectPatternError tag feed
    refine ⟨fun outOfRange => ?_, fun f hf => ⟨fun notInTest => ?_, fun inTest => ?_⟩⟩
    · rw [s.applyInject_outOfRange outOfRange] at judged
      exact exec_answered rfl ready judged rfl
    · rw [State.applyInject_notInTest hf notInTest] at judged
      exact exec_answered rfl ready judged rfl
    · rw [State.applyInject_inTest hf inTest] at judged
      exact exec_answered rfl ready judged rfl
  · refine ⟨?_, ?_, State.sendPattern_inverts⟩
    · rw [State.sendPattern_feed]
    · rw [State.sendPattern_feed, State.sendPattern_feed, State.setFeed_feed]

end Sys2Proof.Machine
end

section
/-! SUPPORT. The cell store and the stream table as one sound whole: the free pool as a stack, and what each operation of chapter 3
keeps of the canonical form, of the streams and of the pool (R38, R40, R42 to R55). -/

namespace Sys2Proof.Machine

/-! ### The free pool as a stack (R38) -/

/-- A freed slot lies on top of the stack (R38). -/
theorem FreePool.push_stack (p : FreePool) {i : Nat} (hi : i < 16384) : (p.push i).stack = i :: p.stack := by
  unfold FreePool.push
  split
  · next h =>
    obtain ⟨hfreed, hfresh⟩ := h
    have hn : Config.cellSlots - i = Config.cellSlots - p.fresh + 1 := by simp only [Config.cellSlots]; omega
    have hmap : ∀ k, i + Nat.succ k = p.fresh + k := fun k => by omega
    simp [FreePool.stack, hfreed, hn, List.range_succ_eq_map, Function.comp_def, hmap]
  · rfl

/-- The slot taken from the pool is the top of the stack (R38). -/
theorem FreePool.stack_of_pop {p q : FreePool} {i : Nat} (h : p.pop = some (i, q)) : p.stack = i :: q.stack := by
  unfold FreePool.pop at h
  split at h
  · next t hfreed =>
    cases h
    simp [FreePool.stack, hfreed]
  · next hfreed =>
    split at h
    · next hlt =>
      cases h
      have hn : Config.cellSlots - p.fresh = Config.cellSlots - (p.fresh + 1) + 1 := by omega
      simp only [FreePool.stack, hfreed, List.nil_append]
      rw [hn, List.range_succ_eq_map, List.map_cons, List.map_map]
      exact congrArg (p.fresh :: ·) (List.map_congr_left fun k _ => by simp only [Function.comp_def]; omega)
    · cases h

/-! ### Reads after writes -/

@[simp] theorem Store.setStream_cell (st : Store) (k slot : Nat) (r : StreamRecord) : (st.setStream k r).cell slot = st.cell slot :=
  rfl

theorem Store.setStream_stream {st : Store} (h : st.wf = true) (k : Nat) (r : StreamRecord) : (st.setStream k r).stream k = r :=
  Table.get_set_same (Table.sorted_of_wf ((Store.wf_iff st).1 h).2) k r

theorem Store.setStream_stream_other (st : Store) {k j : Nat} (r : StreamRecord) (h : k ≠ j) :
    (st.setStream k r).stream j = st.stream j :=
  Table.get_set_other _ _ _ h

/-- Freeing a slot unlists its cell and leaves the others (R38). -/
theorem Store.free_cell {st : Store} (h : st.wf = true) (slot i : Nat) (c : CellRecord) :
    (st.free slot c).cell i = if i = slot then none else st.cell i := by
  split
  · next hi => rw [hi]; exact Table.find_erase_same ((Store.wf_iff st).1 h).1 slot
  · next hi => exact Table.find_erase_other _ (Ne.symm hi)

/-- Freeing a slot keeps every record's stream and subscribers (R51). -/
theorem Store.free_stream_subs {st : Store} (h : st.wf = true) (slot : Nat) (c : CellRecord) (j : Nat) :
    ((st.free slot c).stream j).src = (st.stream j).src ∧ ((st.free slot c).stream j).subs = (st.stream j).subs ∧
      ((st.free slot c).stream j).waiting = (st.stream j).waiting := by
  by_cases hj : c.stream = j
  · subst hj
    have hget : (st.free slot c).stream c.stream =
        { st.stream c.stream with
          head := c.next, tail := if c.next.isSome then (st.stream c.stream).tail else none,
          count := (st.stream c.stream).count - 1 } :=
      Table.get_set_same (Table.sorted_of_wf ((Store.wf_iff st).1 h).2) _ _
    rw [hget]
    exact ⟨rfl, rfl, rfl⟩
  · have hget : (st.free slot c).stream j = st.stream j := Table.get_set_other _ _ _ hj
    rw [hget]
    exact ⟨rfl, rfl, rfl⟩

/-! ### Soundness -/

/-- The cell store and the stream table are canonical, their streams unique and their free pool exact. -/
structure Store.Sound (st : Store) : Prop where
  wf : st.wf = true
  streams : st.streamsSound
  pool : st.poolSound

/-- The pool takes a slot that held a cell, and that cell goes (R38). -/
theorem Store.poolSound_push {st u : Store} {slot : Nat} {c : CellRecord} (h : st.poolSound) (hc : st.cell slot = some c)
    (hpool : u.pool = st.pool.push slot) (hcell : ∀ i, u.cell i = if i = slot then none else st.cell i) : u.poolSound := by
  obtain ⟨nodup, mem, bound⟩ := h
  have hslot : slot < 16384 := bound slot (by simp [hc])
  have hstack : u.pool.stack = slot :: st.pool.stack := by rw [hpool, FreePool.push_stack _ hslot]
  refine ⟨?_, fun i => ?_, fun i hi => ?_⟩
  · rw [hstack]
    exact List.nodup_cons.2 ⟨fun hm => by simpa [hc] using ((mem slot).1 hm).2, nodup⟩
  · rw [hstack, hcell, List.mem_cons, mem i]
    by_cases hi : i = slot
    · simp [hi, hslot]
    · simp [hi]
  · rw [hcell] at hi
    by_cases h' : i = slot
    · rw [h']; exact hslot
    · rw [if_neg h'] at hi; exact bound i hi

/-- The top slot of the pool takes a cell; which other slots hold one does not change (R38). -/
theorem Store.poolSound_pop {st u : Store} {slot : Nat} {p : FreePool} (h : st.poolSound) (hpop : st.pool.pop = some (slot, p))
    (hpool : u.pool = p) (hcell : ∀ i, (u.cell i).isSome = (decide (i = slot) || (st.cell i).isSome)) : u.poolSound := by
  obtain ⟨nodup, mem, bound⟩ := h
  have hstack := FreePool.stack_of_pop hpop
  rw [hstack, List.nodup_cons] at nodup
  have hslot : slot < 16384 := ((mem slot).1 (by simp [hstack])).1
  have hnone : ∀ i, u.cell i = none ↔ i ≠ slot ∧ st.cell i = none := fun i => by
    rw [← Option.not_isSome_iff_eq_none, hcell, ← Option.not_isSome_iff_eq_none]
    simp
  refine ⟨by rw [hpool]; exact nodup.2, fun i => ?_, fun i hi => ?_⟩
  · rw [hpool, hnone]
    have := mem i
    rw [hstack, List.mem_cons] at this
    constructor
    · intro hi
      have hne : i ≠ slot := fun e => nodup.1 (e ▸ hi)
      exact ⟨(this.1 (.inr hi)).1, hne, (this.1 (.inr hi)).2⟩
    · rintro ⟨hlt, hne, hcell'⟩
      exact (this.2 ⟨hlt, hcell'⟩).resolve_left hne
  · rw [hcell, Bool.or_eq_true, decide_eq_true_iff] at hi
    rcases hi with rfl | hi
    · exact hslot
    · exact bound i hi

/-- Which slots hold cells is all that the pool's soundness depends on. -/
theorem Store.poolSound_of_cells {st u : Store} (h : st.poolSound) (hpool : u.pool = st.pool)
    (hcell : ∀ i, (u.cell i).isSome = (st.cell i).isSome) : u.poolSound := by
  obtain ⟨nodup, mem, bound⟩ := h
  refine ⟨by rw [hpool]; exact nodup, fun i => ?_, fun i hi => bound i (by rw [← hcell]; exact hi)⟩
  rw [hpool, mem, ← Option.not_isSome_iff_eq_none, ← Option.not_isSome_iff_eq_none, hcell]

/-- A write of one record keeps the streams unique when the record, if OPEN, names a stream that no other OPEN record names
(R40). -/
theorem Store.streamsSound_setStream {st : Store} (h : st.wf = true) (hs : st.streamsSound) (k : Nat) (r : StreamRecord)
    (hwait : ∀ f, hasFeed r.waiting f = true → hasFeed r.subs f = true)
    (hopen : r.isOpen = true → ∀ j, j < 128 → j ≠ k → (st.stream j).isOpen = true → (st.stream j).src ≠ r.src) :
    (st.setStream k r).streamsSound := by
  obtain ⟨unique, waits⟩ := hs
  have same := st.setStream_stream h k r
  have other : ∀ j, j ≠ k → (st.setStream k r).stream j = st.stream j := fun j hj =>
    st.setStream_stream_other r (Ne.symm hj)
  refine ⟨fun i j hi hj oi oj e => ?_, fun j f hf => ?_⟩
  · by_cases h1 : i = k <;> by_cases h2 : j = k
    · rw [h1, h2]
    · rw [h1, same] at oi e
      rw [other j h2] at oj e
      exact absurd e.symm (hopen oi j hj h2 oj)
    · rw [h2, same] at oj e
      rw [other i h1] at oi e
      exact absurd e (hopen oj i hi h1 oi)
    · rw [other i h1] at oi e
      rw [other j h2] at oj e
      exact unique i j hi hj oi oj e
  · by_cases h1 : j = k
    · rw [h1, same] at hf ⊢; exact hwait f hf
    · rw [other j h1] at hf ⊢; exact waits j f hf

/-- The streams' soundness reads a record's stream, subscribers and waiting feeds only. -/
theorem Store.streamsSound_of_subs {st u : Store} (hs : st.streamsSound)
    (h : ∀ j, (u.stream j).src = (st.stream j).src ∧ (u.stream j).subs = (st.stream j).subs ∧
      (u.stream j).waiting = (st.stream j).waiting) : u.streamsSound := by
  have hopen : ∀ j, (u.stream j).isOpen = (st.stream j).isOpen := fun j => by simp only [StreamRecord.isOpen, (h j).2.1]
  refine ⟨fun i j hi hj oi oj e => hs.1 i j hi hj (hopen i ▸ oi) (hopen j ▸ oj) ?_, fun j f hf => ?_⟩
  · rw [← (h i).1, ← (h j).1]; exact e
  · rw [(h j).2.1]; rw [(h j).2.2] at hf; exact hs.2 j f hf

theorem Store.sound_setStream {st : Store} (h : st.Sound) (k : Nat) (r : StreamRecord)
    (hwait : ∀ f, hasFeed r.waiting f = true → hasFeed r.subs f = true)
    (hopen : r.isOpen = true → ∀ j, j < 128 → j ≠ k → (st.stream j).isOpen = true → (st.stream j).src ≠ r.src) :
    (st.setStream k r).Sound :=
  ⟨Store.setStream_wf h.wf k r, Store.streamsSound_setStream h.wf h.streams k r hwait hopen,
    Store.poolSound_of_cells h.pool rfl (fun _ => rfl)⟩

/-- A record in the table that keeps its stream stays unique, if it was OPEN wherever it is OPEN now. -/
theorem Store.sound_setStream_sameSrc {st : Store} (h : st.Sound) {k : Nat} (hk : k < 128) (r : StreamRecord)
    (hsrc : r.src = (st.stream k).src) (hopen : r.isOpen = true → (st.stream k).isOpen = true)
    (hwait : ∀ f, hasFeed r.waiting f = true → hasFeed r.subs f = true) : (st.setStream k r).Sound :=
  Store.sound_setStream h k r hwait fun o j hj hne oj e => hne (h.streams.1 j k hj hk oj (hopen o) (e.trans hsrc))

/-- A record that keeps stream, subscribers and waiting feeds stays sound wherever it stands. -/
theorem Store.sound_setStream_sameSubs {st : Store} (h : st.Sound) (k : Nat) (r : StreamRecord)
    (hsrc : r.src = (st.stream k).src) (hsubs : r.subs = (st.stream k).subs) (hwait : r.waiting = (st.stream k).waiting) :
    (st.setStream k r).Sound := by
  refine ⟨Store.setStream_wf h.wf k r, Store.streamsSound_of_subs h.streams fun j => ?_,
    Store.poolSound_of_cells h.pool rfl (fun _ => rfl)⟩
  by_cases hj : j = k
  · rw [hj, st.setStream_stream h.wf]; exact ⟨hsrc, hsubs, hwait⟩
  · rw [st.setStream_stream_other r (Ne.symm hj)]; exact ⟨rfl, rfl, rfl⟩

/-! ### The operations of chapter 3 -/

theorem Store.sound_cong {st : Store} (h : st.Sound) (v : Vector Bool 13) : ({ st with cong := v } : Store).Sound :=
  ⟨h.wf, h.streams, h.pool⟩

/-- Freeing the slot of a stored cell (R38, R51). -/
theorem Store.sound_free {st : Store} (h : st.Sound) {slot : Nat} {c : CellRecord} (hc : st.cell slot = some c) :
    (st.free slot c).Sound :=
  ⟨Store.free_wf h.wf slot c, Store.streamsSound_of_subs h.streams (Store.free_stream_subs h.wf slot c),
    Store.poolSound_push h.pool hc rfl (fun i => Store.free_cell h.wf slot i c)⟩

/-- A cell's record is replaced in its slot. -/
theorem Store.sound_putCell {st : Store} (h : st.Sound) {slot : Nat} {c : CellRecord} (hc : st.cell slot = some c)
    (d : CellRecord) : ({ st with cells := Table.put st.cells slot d } : Store).Sound := by
  refine ⟨?_, h.streams, Store.poolSound_of_cells h.pool rfl fun i => ?_⟩
  · have := (Store.wf_iff st).1 h.wf
    exact (Store.wf_iff _).2 ⟨Table.sorted_put this.1 _ _, this.2⟩
  · simp only [Store.cell] at hc ⊢
    by_cases hi : slot = i
    · subst hi; simp [hc]
    · rw [Table.find_put_other _ _ hi]

theorem hasFeed_addFeed (fs : FeedSet) (f g : FeedId) : hasFeed (addFeed fs f) g = (hasFeed fs g || decide (g = f)) := by
  simp [hasFeed, addFeed, oneFeed, Fin.ext_iff]

theorem hasFeed_dropFeed (fs : FeedSet) (f g : FeedId) : hasFeed (dropFeed fs f) g = (hasFeed fs g && decide (g ≠ f)) := by
  simp [hasFeed, dropFeed, oneFeed, Fin.ext_iff]

theorem hasFeed_oneFeed (f g : FeedId) : hasFeed (oneFeed f) g = decide (g = f) := by
  simp [hasFeed, oneFeed, Fin.ext_iff]

/-- A record with a subscriber is OPEN (R40). -/
theorem StreamRecord.isOpen_of_hasFeed {r : StreamRecord} {f : FeedId} (h : hasFeed r.subs f = true) : r.isOpen = true := by
  simp only [StreamRecord.isOpen, ne_eq, decide_not, Bool.not_eq_true', decide_eq_false_iff_not]
  intro e
  simp [e, hasFeed] at h

/-- The index of the OPEN record of a stream (R40). -/
theorem Store.openAt_some {st : Store} {src : Source} {k : Nat} (h : st.openAt src = some k) :
    k < 128 ∧ (st.stream k).isOpen = true ∧ (st.stream k).src = src := by
  have hp := List.find?_some h
  have hm := List.mem_of_find?_eq_some h
  simp only [Bool.and_eq_true, decide_eq_true_eq] at hp
  exact ⟨by simpa [Config.streamRecords] using hm, hp⟩

/-- No OPEN record names the stream (R40). -/
theorem Store.openAt_none {st : Store} {src : Source} (h : st.openAt src = none) {j : Nat} (hj : j < 128)
    (ho : (st.stream j).isOpen = true) : (st.stream j).src ≠ src := by
  intro e
  have := List.find?_eq_none.1 h j (by simpa [Config.streamRecords] using hj)
  simp [ho, e] at this

/-- In a sound table the OPEN record of a stream is the one that is found. -/
theorem Store.openAt_eq {st : Store} (hs : st.streamsSound) {k : Nat} (hk : k < 128) (ho : (st.stream k).isOpen = true) :
    st.openAt (st.stream k).src = some k := by
  cases h : st.openAt (st.stream k).src with
  | none => exact absurd rfl (Store.openAt_none h hk ho)
  | some j =>
    obtain ⟨hj, hoj, hsrc⟩ := Store.openAt_some h
    rw [hs.1 j k hj hk hoj ho hsrc]

theorem StreamRecord.joined_waits {r : StreamRecord} (h : ∀ f, hasFeed r.waiting f = true → hasFeed r.subs f = true) (f : FeedId)
    (w : Bool) : ∀ g, hasFeed (r.joined f w).waiting g = true → hasFeed (r.joined f w).subs g = true := by
  intro g
  have := h g
  unfold StreamRecord.joined
  cases w <;> split <;> simp [hasFeed_addFeed, hasFeed_dropFeed] <;> grind

theorem StreamRecord.joined_src (r : StreamRecord) (f : FeedId) (w : Bool) : (r.joined f w).src = r.src := by
  unfold StreamRecord.joined
  split
  · split <;> rfl
  · rfl

/-- A feed joins or opens the record of a stream (R42, R43). -/
theorem Store.sound_joined {st : Store} (h : st.Sound) {src : Source} {k : Nat} (hk : st.openAt src = some k) (f : FeedId)
    (w : Bool) : (st.setStream k ((st.stream k).joined f w)).Sound := by
  obtain ⟨hlt, hopen, -⟩ := Store.openAt_some hk
  exact Store.sound_setStream_sameSrc h hlt _ (StreamRecord.joined_src _ _ _) (fun _ => hopen)
    (StreamRecord.joined_waits (h.streams.2 k) f w)

theorem Store.sound_opened {st : Store} (h : st.Sound) {src : Source} (hnone : st.openAt src = none) (k : Nat) (f : FeedId)
    (w : Bool) : (st.setStream k (StreamRecord.opened f src w)).Sound := by
  refine Store.sound_setStream h k _ (fun g hg => ?_) (fun _ j hj _ ho => Store.openAt_none hnone hj ho)
  cases w
  · simp [StreamRecord.opened, hasFeed] at hg
  · simpa [StreamRecord.opened] using hg

/-- A feed leaves a record (R44, R45). -/
theorem Store.sound_leave {st : Store} (h : st.Sound) {k : Nat} (hk : k < 128) (f : FeedId) : (st.leave k f).Sound := by
  unfold Store.leave
  simp only
  split
  · exact Store.sound_setStream h k _ (fun g hg => by simp [StreamRecord.unused, hasFeed] at hg)
      (fun o => by simp [StreamRecord.unused, StreamRecord.isOpen] at o)
  · next hsubs =>
    refine Store.sound_setStream_sameSrc h hk _ rfl (fun _ => ?_) (fun g hg => ?_)
    · simp only [StreamRecord.isOpen, ne_eq, decide_eq_true_eq]
      intro e
      exact hsubs (by simp [dropFeed, e])
    · simp only [hasFeed_dropFeed, Bool.and_eq_true] at hg ⊢
      exact ⟨h.streams.2 k g hg.1, hg.2⟩

/-- A waiting feed of a record begins to read (R42, R54). -/
theorem Store.sound_reads {st : Store} (h : st.Sound) {src : Source} {k : Nat} (hk : st.openAt src = some k) (f : FeedId) :
    (st.setStream k { st.stream k with waiting := dropFeed (st.stream k).waiting f }).Sound := by
  obtain ⟨hlt, hopen, -⟩ := Store.openAt_some hk
  refine Store.sound_setStream_sameSrc h hlt _ rfl (fun _ => hopen) (fun g hg => ?_)
  simp only [hasFeed_dropFeed, Bool.and_eq_true] at hg
  exact h.streams.2 k g hg.1

/-- An invariant of stores is kept by a chain of store operations. -/
theorem Store.foldl_keeps {β : Type} {P : Store → Prop} (g : Store → β → Store) (hg : ∀ st b, P st → P (g st b)) (l : List β)
    (st : Store) (h : P st) : P (l.foldl g st) := by
  induction l generalizing st with
  | nil => exact h
  | cons b l ih => exact ih _ (hg st b h)

/-- A stream is emptied (R55). -/
theorem Store.sound_emptyStream {st : Store} (h : st.Sound) (k : Nat) : (st.emptyStream k).Sound := by
  refine Store.sound_setStream_sameSubs (Store.foldl_keeps _ (fun u slot hu => ?_) _ st h) k _ rfl rfl rfl
  split
  · next hc => exact Store.sound_free hu hc
  · exact hu

/-- An arrival is stored in the top slot of the pool (R47). -/
theorem Store.sound_put {st : Store} (h : st.Sound) {slot : Nat} {pool : FreePool} (hpop : st.pool.pop = some (slot, pool))
    (k : Nat) (p : PortId) (hdr : Header) (payload : List Byte) (tick : BitVec 32) :
    (st.put slot pool k p hdr payload tick).Sound := by
  refine ⟨Store.put_wf h.wf slot pool k p hdr payload tick, Store.streamsSound_of_subs h.streams fun j => ?_,
    Store.poolSound_pop h.pool hpop rfl fun i => ?_⟩
  · have hsorted := Table.sorted_of_wf ((Store.wf_iff st).1 h.wf).2
    by_cases hj : k = j
    · subst hj
      have hget : (st.put slot pool k p hdr payload tick).stream k =
          { st.stream k with
            head := if (st.stream k).tail.isSome then (st.stream k).head else some slot, tail := some slot,
            count := (st.stream k).count + 1 } := Table.get_set_same hsorted _ _
      rw [hget]
      exact ⟨rfl, rfl, rfl⟩
    · have hget : (st.put slot pool k p hdr payload tick).stream j = st.stream j := Table.get_set_other _ _ _ hj
      rw [hget]
      exact ⟨rfl, rfl, rfl⟩
  · simp only [Store.put, Store.setStream_cell]
    simp only [Store.cell]
    by_cases hi : slot = i
    · subst hi; simp
    · rw [Table.find_put_other _ _ hi, decide_eq_false (Ne.symm hi), Bool.false_or]
      split
      · next old _ =>
        split
        · next c hc =>
          by_cases ho : old = i
          · subst ho
            rw [Table.find_put_same, hc]
            rfl
          · rw [Table.find_put_other _ _ ho]
        · rfl
      · rfl

end Sys2Proof.Machine
end

section
/-! SUPPORT. What every operation of the traffic keeps beyond its frame (Moves, Acts): a sound store, and no record ARMED without a
STARTED item; and that no lane is left waiting to move on once an event has been applied whole (R38, R40, R128). One lemma for each
operation says so once, along the branches of its definition. -/

namespace Sys2Proof.Machine

/-- An ARMED record has a splice that has not ended (R128). -/
def SpliceRecord.Settled (x : SpliceRecord) : Prop := x.status = .armed → x.startedCount ≠ 0

/-- Schedule memory is sorted and every record of it is settled. -/
def State.RecordsSettled (s : State) : Prop := Table.sorted s.ssu.records = true ∧ ∀ r, (s.record r).Settled

/-- What an operation keeps. Where it is a whole event (q), it leaves no lane waiting to move on; a part of an event may leave some. -/
structure Keeps (q : Prop) (s t : State) : Prop where
  store : s.store.Sound → t.store.Sound
  records : s.RecordsSettled → t.RecordsSettled
  walks : q → s.due.walks = [] → t.due.walks = []

variable {q : Prop}

namespace Keeps

theorem refl (s : State) : Keeps q s s := ⟨id, id, fun _ => id⟩

theorem trans {s t u : State} (h : Keeps q s t) (h' : Keeps q t u) : Keeps q s u :=
  ⟨fun x => h'.store (h.store x), fun x => h'.records (h.records x), fun w x => h'.walks w (h.walks w x)⟩

theorem foldl {β : Type} (g : State → β → State) (hg : ∀ s b, Keeps q s (g s b)) (l : List β) (s : State) :
    Keeps q s (l.foldl g s) := by
  induction l generalizing s with
  | nil => exact refl s
  | cons b l ih => exact (hg s b).trans (ih _)

end Keeps

/-! ### Writes of one part -/

/-- An operation that leaves the store, the records and the waiting lanes alone. -/
theorem keeps_elsewhere {s t : State} (hstore : t.store = s.store) (hrecords : t.ssu.records = s.ssu.records)
    (hwalks : t.due.walks = s.due.walks) : Keeps q s t := by
  have hrecord : ∀ r, t.record r = s.record r := fun r => by simp only [State.record, hrecords]
  refine ⟨fun h => by rw [hstore]; exact h, fun h => ⟨by rw [hrecords]; exact h.1, fun r => by rw [hrecord]; exact h.2 r⟩,
    fun _ h => by rw [hwalks]; exact h⟩

theorem keeps_store (s : State) (st : Store) (h : s.store.Sound → st.Sound) : Keeps q s { s with store := st } :=
  ⟨h, id, fun _ => id⟩

theorem keeps_setMap (s : State) (f : FeedId) (m : FeedMap) : Keeps q s (s.setMap f m) := keeps_elsewhere rfl rfl rfl

theorem keeps_setLive (s : State) (f : FeedId) (e : Nat) (v : Live) : Keeps q s (s.setLive f e v) := keeps_elsewhere rfl rfl rfl

theorem keeps_setLane (s : State) (l : LaneId) (x : Lane) : Keeps q s (s.setLane l x) := keeps_elsewhere rfl rfl rfl

theorem keeps_setFeed (s : State) (f : FeedId) (x : Feed) : Keeps q s (s.setFeed f x) := keeps_elsewhere rfl rfl rfl

theorem keeps_setRecord (s : State) (r : Nat) (x : SpliceRecord) (h : (s.record r).Settled → x.Settled) :
    Keeps q s (s.setRecord r x) := by
  refine ⟨id, fun hs => ⟨?_, fun r' => ?_⟩, fun _ => id⟩
  · unfold State.setRecord Table.set
    split
    · exact Table.sorted_erase hs.1 r
    · exact Table.sorted_put hs.1 r x
  · by_cases hr : r = r'
    · rw [← hr, State.setRecord_record s hs.1]; exact h (hs.2 r)
    · rw [State.setRecord_record_other s x hr]; exact hs.2 r'

/-- A record that is not ARMED is settled. -/
theorem keeps_setRecord_of_status (s : State) (r : Nat) {x : SpliceRecord} (h : x.status ≠ .armed) :
    Keeps q s (s.setRecord r x) := keeps_setRecord s r x fun _ e => absurd e h

/-! ### Hand-overs to the MLT -/

theorem keeps_handReport (s : State) (r : Report) : Keeps q s (s.handReport r) := by
  unfold State.handReport
  split
  · exact keeps_elsewhere rfl rfl rfl
  · exact Keeps.refl s

theorem keeps_count (s : State) (c : CounterId) (n : Nat) : Keeps q s (s.count c n) := by
  have base : ∀ x : Counters, Keeps q s { s with counters := x } := fun x => keeps_elsewhere rfl rfl rfl
  unfold State.count
  simp only
  split
  · exact (base _).trans (keeps_handReport _ _)
  · exact base _

/-! ### Cell store and stream table -/

theorem keeps_cong (s : State) (v : Vector Bool 13) : Keeps q s { s with store := { s.store with cong := v } } :=
  keeps_store s _ fun h => Store.sound_cong h v

theorem keeps_setCongestion (s : State) (p : PortId) : Keeps q s (s.setCongestion p) := by
  unfold State.setCongestion
  split
  · exact Keeps.refl s
  · exact (keeps_cong s _).trans (keeps_handReport _ _)

theorem keeps_judgeCongestion (s : State) (p : PortId) : Keeps q s (s.judgeCongestion p) := by
  unfold State.judgeCongestion
  split
  · exact (keeps_cong s _).trans (keeps_handReport _ _)
  · exact Keeps.refl s

theorem keeps_release (s : State) (f : FeedId) (slot : Nat) : Keeps q s (s.release f slot) := by
  unfold State.release
  split
  · exact Keeps.refl s
  · next c hc =>
    split
    · split
      · exact (keeps_store s _ (fun h => Store.sound_free h hc)).trans (keeps_judgeCongestion _ _)
      · exact keeps_store s _ (fun h => Store.sound_putCell h hc _)
    · exact Keeps.refl s

theorem keeps_releaseAll (s : State) (f : FeedId) (slots : List Nat) : Keeps q s (s.releaseAll f slots) :=
  Keeps.foldl _ (fun s k => keeps_release s f k) slots s

theorem keeps_subscribe {s t : State} {f : FeedId} {src : Source} {w : Bool} (h : s.subscribe f src w = some t) :
    Keeps q s t := by
  unfold State.subscribe at h
  split at h
  · next hk => cases h; exact keeps_store s _ (fun x => Store.sound_joined x hk _ _)
  · next hnone =>
    split at h
    · cases h; exact keeps_store s _ (fun x => Store.sound_opened x hnone _ _ _)
    · cases h

theorem keeps_subscribeFound (s : State) (f : FeedId) (src : Source) (w : Bool) : Keeps q s (s.subscribeFound f src w) := by
  unfold State.subscribeFound
  cases h : s.subscribe f src w with
  | none => exact Keeps.refl s
  | some t => exact keeps_subscribe h

theorem keeps_withdraw (s : State) (f : FeedId) (src : Source) : Keeps q s (s.withdraw f src) := by
  unfold State.withdraw
  split
  · next hk =>
    split
    · exact (keeps_releaseAll s f _).trans (keeps_store _ _ (fun h => Store.sound_leave h (Store.openAt_some hk).1 _))
    · exact Keeps.refl s
  · exact Keeps.refl s

theorem keeps_withdrawAll (s : State) (f : FeedId) : Keeps q s (s.withdrawAll f) :=
  Keeps.foldl _ (fun s _ => keeps_withdraw s f _) _ s

theorem keeps_takeUp (s : State) (f : FeedId) (src : Source) (pre : Bool) : Keeps q s (s.takeUp f src pre) := by
  unfold State.takeUp
  split
  · exact keeps_subscribeFound s f src false
  · next k hk =>
    have reads := keeps_store (q := q) s _ (fun x => Store.sound_reads x hk f)
    simp only
    split
    · split
      · split
        · exact reads.trans (keeps_releaseAll _ _ _)
        · exact reads
      · exact Keeps.refl s
    · exact keeps_subscribeFound s f src false

theorem keeps_purge (s : State) (p : PortId) : Keeps q s (s.purge p) :=
  Keeps.trans
    (keeps_store s _ fun h => Store.foldl_keeps (P := Store.Sound) _ (fun _ k h => Store.sound_emptyStream h k) _ _ h)
    (keeps_judgeCongestion _ p)

theorem keeps_trimFeed (s : State) (f : FeedId) (src : Source) (tick : BitVec 32) (m : Nat) : Keeps q s (s.trimFeed f src tick m) :=
  keeps_releaseAll s f _

theorem keeps_trimWaiting (s : State) (k : Nat) (tick : BitVec 32) : Keeps q s (s.trimWaiting k tick) :=
  Keeps.foldl _ (fun s f => keeps_trimFeed s f _ tick _) _ s

/-- NextCont of a stream record follows a cell (R48, R49). -/
theorem keeps_nextCont (s : State) (k : Nat) (c : Option (BitVec 4)) :
    Keeps q s { s with store := s.store.setStream k { s.store.stream k with nextCont := c } } :=
  keeps_store s _ fun h => Store.sound_setStream_sameSubs h k _ rfl rfl rfl

theorem keeps_judgeContinuity (s : State) (p : PortId) (k : Nat) (c : BitVec 4) : Keeps q s (s.judgeContinuity p k c) := by
  unfold State.judgeContinuity
  have h := keeps_nextCont (q := q) s k (some (c + 1))
  simp only
  split
  · exact h.trans (keeps_count _ _ _)
  · exact h

theorem keeps_overflow (s : State) (p : PortId) (k : Nat) (c : BitVec 4) : Keeps q s (s.overflow p k c) :=
  ((keeps_nextCont s k (some (c + 1))).trans (keeps_count _ _ _)).trans (keeps_setCongestion _ _)

theorem keeps_offerCell (s : State) (p : PortId) (hdr : Header) (payload : List Byte) : Keeps q s (s.offerCell p hdr payload) := by
  unfold State.offerCell
  split
  · exact Keeps.refl s
  · split
    · exact keeps_overflow _ _ _ _
    · next hpop =>
      split
      · exact (((keeps_store s _ (fun h => Store.sound_put h hpop _ _ _ _ _)).trans (keeps_judgeContinuity _ _ _ _)).trans
          (keeps_judgeCongestion _ _)).trans (keeps_trimWaiting _ _ _)
      · exact keeps_overflow _ _ _ _

/-! ### Splice schedule -/

theorem keeps_endNeed (s : State) (f : FeedId) (src : Source) (rd : Bool) : Keeps q s (s.endNeed f src rd) := by
  unfold State.endNeed
  split
  · exact Keeps.refl s
  · split
    · split
      · exact (keeps_withdraw s f src).trans (keeps_subscribeFound _ f src true)
      · exact Keeps.refl s
    · exact keeps_withdraw s f src

theorem keeps_endNeedOf (s : State) (f : FeedId) (src : Option Source) (rd : Bool) : Keeps q s (s.endNeedOf f src rd) := by
  cases src with
  | none => exact Keeps.refl s
  | some x => exact keeps_endNeed s f x rd

theorem keeps_endMarks (s : State) (r : SpliceRecord) (fs : List FeedId) : Keeps q s (s.endMarks r fs) :=
  Keeps.foldl _ (fun s f => keeps_endNeed s f _ false) _ s

theorem keeps_noticeFeed (s : State) (src : Source) (f : FeedId) : Keeps q s (s.noticeFeed src f).1 := by
  unfold State.noticeFeed
  split
  · cases h : s.subscribe f src true with
    | none => exact Keeps.refl s
    | some t => exact keeps_subscribe h
  · exact Keeps.refl s

theorem keeps_noticeFeeds (src : Source) (l : List FeedId) (s : State) : Keeps q s (s.noticeFeeds src l).1 := by
  induction l generalizing s with
  | nil => exact Keeps.refl s
  | cons f l ih => exact (keeps_noticeFeed s src f).trans (ih _)

theorem keeps_giveNotice (s : State) (l : LaneId) (r : Nat) : Keeps q s (s.giveNotice l r) := by
  have noticed : ∀ (t : State) (x : SpliceRecord), x.status = .noticed → Keeps q t (t.setRecord r x) := fun t x h =>
    keeps_setRecord_of_status t r (by simp [h])
  have h := (noticed s { s.record r with status := .noticed } rfl).trans
    (keeps_handReport _ (.spliceNotice l r (s.record r).dueCycle))
  unfold State.giveNotice
  simp only
  split
  · exact (h.trans (keeps_noticeFeeds _ _ _)).trans (noticed _ _ rfl)
  · exact h

theorem keeps_beginSplice (s : State) (l : LaneId) (r : Nat) (x : SpliceRecord) (f : FeedId) (e : Nat) :
    Keeps q s (s.beginSplice l r x f e) := by
  unfold State.beginSplice
  simp only
  split
  · exact keeps_setLive _ _ _ _
  · exact (keeps_setLive _ _ _ _).trans (keeps_subscribeFound _ _ _ _)

theorem keeps_setShare (s : State) (f : FeedId) (e : Nat) (t : Tag) (share : Nat) : Keeps q s (s.setShare f e t share) := by
  unfold State.setShare
  simp only
  split
  · split <;> exact keeps_setMap _ _ _
  · exact keeps_setMap _ _ _

theorem keeps_armEffect (s : State) (l : LaneId) (r : Nat) (x : SpliceRecord) (f : FeedId) (o : SpliceResult) :
    Keeps q s (s.armEffect l r x f o) := by
  unfold State.armEffect
  split
  · split
    · exact keeps_beginSplice _ _ _ _ _ _
    · split
      · exact keeps_setShare _ _ _ _ _
      · exact Keeps.refl s
  · exact Keeps.refl s

@[simp] theorem State.subscribeFound_ssu (s : State) (f : FeedId) (src : Source) (w : Bool) :
    (s.subscribeFound f src w).ssu = s.ssu := by
  unfold State.subscribeFound State.subscribe
  split
  · rfl
  · split <;> rfl

/-- The effect of an outcome at arming on its entry leaves the schedule alone (R117). -/
theorem State.armEffect_record (s : State) (l : LaneId) (r : Nat) (x : SpliceRecord) (f : FeedId) (o : SpliceResult) (r' : Nat) :
    (s.armEffect l r x f o).record r' = s.record r' := by
  suffices h : (s.armEffect l r x f o).ssu = s.ssu by simp only [State.record, h]
  unfold State.armEffect State.beginSplice State.setShare
  split
  · split
    · simp only
      split <;> simp [State.setLive]
    · split
      · simp only
        split
        · split <;> rfl
        · rfl
      · rfl
  · rfl

/-- An outcome entered in a record takes none from it. -/
theorem SpliceRecord.settled_append {x : SpliceRecord} (h : x.Settled) (os : List (FeedId × SpliceResult)) :
    ({ x with outcomes := x.outcomes ++ os } : SpliceRecord).Settled := fun armed => by
  have := h armed
  simp only [SpliceRecord.startedCount, List.filter_append, List.length_append] at this ⊢
  omega

theorem keeps_armFeed (s : State) (l : LaneId) (r : Nat) (f : FeedId) : Keeps q s (s.armFeed l r f) :=
  (keeps_armEffect s l r _ f _).trans (keeps_setRecord _ _ _ fun h => by
    rw [State.armEffect_record] at h
    exact SpliceRecord.settled_append h _)

/-- A record with its status by its count of STARTED items is settled (R120). -/
theorem SpliceRecord.settled_by_count (x : SpliceRecord) :
    ({ x with status := if x.startedCount = 0 then .complete else .armed } : SpliceRecord).Settled := by
  intro armed
  simp only at armed
  split at armed
  · cases armed
  · assumption

theorem keeps_arm (s : State) (l : LaneId) (r : Nat) : Keeps q s (s.arm l r) :=
  ((Keeps.foldl _ (fun s f => keeps_armFeed s l r f) _ s).trans (keeps_endMarks _ _ _)).trans
    (keeps_setRecord _ _ _ fun _ => SpliceRecord.settled_by_count _)

theorem keeps_faultLane (s : State) (l : LaneId) (r : Nat) (c : LaneCause) : Keeps q s (s.faultLane l r c) :=
  (keeps_setLane s l _).trans (keeps_handReport _ _)

theorem keeps_leaveRecord (s : State) (l : LaneId) (r : Nat) : Keeps q s (s.leaveRecord l r).1 := by
  unfold State.leaveRecord
  simp only
  split
  · split
    · exact keeps_faultLane _ _ _ _
    · exact keeps_setLane _ _ _
  · exact keeps_setLane _ _ _

theorem keeps_expireRecord (s : State) (l : LaneId) (r : Nat) : Keeps q s (s.expireRecord l r).1 :=
  (((keeps_setRecord_of_status s r (by simp)).trans (keeps_endMarks _ _ _)).trans (keeps_handReport _ _)).trans (keeps_leaveRecord _ _ _)

theorem keeps_armRecord (s : State) (l : LaneId) (r : Nat) : Keeps q s (s.armRecord l r).1 := by
  unfold State.armRecord
  simp only
  split
  · exact (keeps_arm s l r).trans (keeps_setLane _ _ _)
  · exact ((keeps_arm s l r).trans (keeps_handReport _ _)).trans (keeps_leaveRecord _ _ _)

theorem keeps_evaluateRecord (s : State) (l : LaneId) (r : Nat) : Keeps q s (s.evaluateRecord l r).1 := by
  have h : Keeps q s (s.setRecord r { s.record r with status := .pending, outcomes := [], marks := [] }) :=
    keeps_setRecord_of_status s r (by simp)
  unfold State.evaluateRecord
  simp only
  split
  · exact h.trans (keeps_expireRecord _ _ _)
  · split
    · exact h.trans (keeps_armRecord _ _ _)
    · split
      · exact (h.trans (keeps_giveNotice _ _ _)).trans (keeps_setLane _ _ _)
      · exact h.trans (keeps_setLane _ _ _)

theorem keeps_reachRecord (s : State) (l : LaneId) (r : Nat) : Keeps q s (s.reachRecord l r).1 := by
  have h := keeps_setLane (q := q) s l { s.lane l with curRec := r }
  unfold State.reachRecord
  simp only
  split
  · split
    · exact h.trans (keeps_leaveRecord _ _ _)
    · exact h.trans (keeps_setLane _ _ _)
  · split
    · exact h.trans (keeps_faultLane _ _ _ _)
    · exact h.trans (keeps_evaluateRecord _ _ _)

theorem keeps_walk (n : Nat) (l : LaneId) (r : Nat) (s : State) : Keeps q s (State.walk n l r s) := by
  induction n generalizing r s with
  | zero => exact Keeps.refl s
  | succ n ih =>
    have h := keeps_reachRecord (q := q) s l r
    simp only [State.walk]
    split
    · next t next ht => rw [ht] at h; exact h.trans (ih _ _)
    · next t ht => rw [ht] at h; exact h

theorem keeps_reach (s : State) (l : LaneId) (r : Nat) : Keeps q s (s.reach l r) := keeps_walk _ l r s

theorem keeps_walkOn {s : State} (l : LaneId) (a : State × Option Nat) (h : Keeps q s a.1) : Keeps q s (State.walkOn l a) := by
  unfold State.walkOn
  split
  · exact h.trans (keeps_reach _ _ _)
  · exact h

theorem keeps_evaluateLane (s : State) (l : LaneId) : Keeps q s (s.evaluateLane l) := by
  unfold State.evaluateLane
  simp only
  split
  · exact keeps_reach _ _ _
  · split
    · exact keeps_walkOn l _ (keeps_expireRecord s l _)
    · split
      · exact keeps_walkOn l _ (keeps_armRecord s l _)
      · exact Keeps.refl s
  · exact Keeps.refl s

/-- A part of an event may leave lanes waiting to move on (R128). -/
theorem keeps_walks (s : State) (l : List LaneId) : Keeps False s { s with due := { s.due with walks := l } } :=
  ⟨id, id, False.elim⟩

theorem keeps_leaveCompleted (s : State) (l : LaneId) (r : Nat) : Keeps False s (s.leaveCompleted l r) := by
  have h := keeps_handReport (q := False) s (.spliceOutcome l r .complete (s.record r).outcomes)
  unfold State.leaveCompleted
  simp only
  split
  · exact h.trans (keeps_walks _ _)
  · exact h.trans (keeps_setLane _ _ _)

/-- A record completes where its last STARTED item ends, so that none is left ARMED without one (R128). -/
theorem keeps_setOutcomes (s : State) (r : Nat) (os : List (FeedId × SpliceResult)) : Keeps False s (s.setOutcomes r os) := by
  unfold State.setOutcomes
  simp only
  split
  · have h : ∀ x : SpliceRecord, x.status = .complete → Keeps False s (s.setRecord r x) := fun x hx =>
      keeps_setRecord_of_status s r (by simp [hx])
    split
    · exact (h _ rfl).trans (keeps_leaveCompleted _ _ _)
    · exact h _ rfl
  · next hdone => exact keeps_setRecord _ _ _ fun _ armed none => hdone ⟨armed, none⟩

theorem keeps_enterOutcome (s : State) (r : Nat) (f : FeedId) (o : SpliceResult) : Keeps False s (s.enterOutcome r f o) := by
  unfold State.enterOutcome
  split
  · exact keeps_setOutcomes _ _ _
  · exact Keeps.refl s

theorem keeps_endSplice (s : State) (f : FeedId) (e : Nat) (v : Live) (o : SpliceResult) (rev : RevertResult) :
    Keeps False s (s.endSplice f e v o rev) := by
  unfold State.endSplice
  split
  · exact keeps_enterOutcome _ _ _ _
  · exact keeps_handReport _ _
  · exact Keeps.refl s

theorem keeps_walkFrom (s : State) (l : LaneId) : Keeps q s (s.walkFrom l) := (keeps_setLane s l _).trans (keeps_reach _ _ _)

/-- The lanes that waited have moved on, and no other waits: the event has been applied whole (R128). -/
theorem Keeps.walkLanes {s t : State} (h : Keeps False s t) : Keeps q s t.walkLanes := by
  have moved : ∀ {q : Prop} (u : State) (l : List LaneId), Keeps q u (l.foldl State.walkFrom u) := fun u l =>
    Keeps.foldl _ keeps_walkFrom l u
  have h' := (h.trans (keeps_walks t [])).trans (moved _ t.due.walks)
  exact ⟨h'.store, h'.records, fun _ _ => (moved (q := True) { t with due := { t.due with walks := [] } } t.due.walks).walks trivial rfl⟩

theorem keeps_stopRecord (f : FeedId) (s : State) (r : Nat) : Keeps False s (State.stopRecord f s r) := by
  unfold State.stopRecord
  simp only
  split
  · split
    · next hs => exact keeps_setRecord_of_status _ _ (by simp [hs])
    · exact keeps_setOutcomes _ _ _
    · exact Keeps.refl s
  · exact Keeps.refl s

theorem keeps_feedStop (s : State) (f : FeedId) : Keeps False s (s.feedStop f) := Keeps.foldl _ (keeps_stopRecord f) _ s

/-! ### Source protection, splices and reverts -/

theorem keeps_restEntries (s : State) (f : FeedId) : Keeps q s (s.restEntries f) :=
  Keeps.foldl _ (fun s e => keeps_setLive s f e _) _ s

theorem keeps_takeFallback (s : State) (f : FeedId) (e : Nat) (lost : Source) : Keeps q s (s.takeFallback f e lost) := by
  unfold State.takeFallback
  split
  · exact Keeps.refl s
  · exact (((keeps_setLive s f e _).trans (keeps_endNeed _ _ _ _)).trans (keeps_subscribeFound _ _ _ _)).trans
      (keeps_handReport _ _)

theorem keeps_reportBlocked (s : State) (f : FeedId) (e : Nat) (lost : Source) (w : BlockReason) :
    Keeps q s (s.reportBlocked f e lost w) := keeps_handReport _ _

theorem keeps_failOnAir (s : State) (f : FeedId) (e : Nat) (lost : Source) : Keeps q s (s.failOnAir f e lost) := by
  unfold State.failOnAir
  split
  · exact keeps_takeFallback _ _ _ _
  · exact keeps_reportBlocked _ _ _ _ _

theorem keeps_loseNewSource (s : State) (f : FeedId) (e : Nat) : Keeps False s (s.loseNewSource f e) := by
  unfold State.loseNewSource
  simp only
  split
  · exact Keeps.refl s
  · have h := (keeps_endSplice s f e (s.live f e) .absent .absent).trans
      (keeps_setLive _ f e (s.live f e).clearSplice)
    split
    · exact h.trans (keeps_takeFallback _ _ _ _)
    · exact (h.trans (keeps_setLive _ _ _ _)).trans (keeps_reportBlocked _ _ _ _ _)

theorem keeps_takeOutPoint (s : State) (f : FeedId) (e : Nat) : Keeps q s (s.takeOutPoint f e) := by
  unfold State.takeOutPoint
  simp only
  split
  · exact Keeps.refl s
  · exact ((keeps_setLive s f e _).trans (keeps_endNeedOf _ _ _ _)).trans (keeps_takeUp _ _ _ _)

theorem keeps_outPoint (s : State) (f : FeedId) (e : Nat) : Keeps False s (s.outPoint f e) := by
  have h := keeps_takeOutPoint (q := False) s f e
  unfold State.outPoint
  simp only
  split
  · exact Keeps.refl s
  · split
    · exact h
    · exact h.trans (keeps_loseNewSource _ _ _)

theorem keeps_inPoint (s : State) (f : FeedId) (e : Nat) : Keeps False s (s.inPoint f e) :=
  (keeps_endSplice s f e _ _ _).trans (keeps_setLive _ _ _ _)

theorem keeps_forceExpiry (s : State) (f : FeedId) (e : Nat) : Keeps False s (s.forceExpiry f e) := by
  have h := keeps_endSplice s f e (s.live f e) .forced .forced
  unfold State.forceExpiry
  simp only
  split
  · exact ((h.trans (keeps_setLive _ _ _ _)).trans (keeps_endNeedOf _ _ _ _)).trans (keeps_takeUp _ _ _ _)
  · exact h.trans (keeps_setLive _ _ _ _)

theorem keeps_cancelExpiry (s : State) (f : FeedId) (e : Nat) : Keeps False s (s.cancelExpiry f e) := by
  unfold State.cancelExpiry
  simp only
  split
  · exact ((keeps_endSplice s f e _ _ _).trans (keeps_setLive _ _ _ _)).trans (keeps_endNeedOf _ _ _ _)
  · split
    · exact keeps_forceExpiry _ _ _
    · split
      · exact keeps_forceExpiry _ _ _
      · next h =>
        exact (((keeps_subscribe h).trans (keeps_endSplice _ _ _ _ _ _)).trans (keeps_setLive _ _ _ _)).trans
          (keeps_endNeedOf _ _ _ _)
  · exact Keeps.refl s

theorem keeps_expireWindow (s : State) (f : FeedId) (e : Nat) : Keeps False s (s.expireWindow f e) := by
  unfold State.expireWindow
  split
  · exact keeps_forceExpiry _ _ _
  · exact keeps_cancelExpiry _ _ _
  · exact Keeps.refl s

theorem keeps_revertAbsent (s : State) (f : FeedId) (e : Nat) : Keeps q s (s.revertAbsent f e) :=
  ((keeps_setLive s f e _).trans (keeps_endNeedOf _ _ _ _)).trans (keeps_handReport _ _)

theorem keeps_failFallback (s : State) (f : FeedId) (e : Nat) (p : PortId) : Keeps q s (s.failFallback f e p) := by
  have h : Keeps q s (if (s.live f e).protSrc.any (fun x => x.port = p) then
      s.setLive f e { s.live f e with revertLeft := none } else s) := by
    split
    · exact keeps_setLive _ _ _ _
    · exact Keeps.refl s
  unfold State.failFallback
  simp only
  split
  · split
    · exact h.trans (keeps_reportBlocked _ _ _ _ _)
    · exact h
  · exact h

theorem keeps_failOutWait (s : State) (f : FeedId) (e : Nat) (p : PortId) : Keeps False s (s.failOutWait f e p) := by
  unfold State.failOutWait
  simp only
  split
  · exact keeps_outPoint _ _ _
  · split
    · exact keeps_revertAbsent _ _ _
    · exact Keeps.refl s

theorem keeps_failEntry (p : PortId) (f : FeedId) (s : State) (e : Nat) : Keeps False s (State.failEntry p f s e) := by
  unfold State.failEntry
  simp only
  split
  · split
    · split
      · exact keeps_failOnAir _ _ _ _
      · exact Keeps.refl s
    · exact Keeps.refl s
  · exact keeps_failFallback _ _ _ _
  · exact keeps_failOutWait _ _ _ _
  · split
    · exact keeps_loseNewSource _ _ _
    · exact Keeps.refl s
  · exact Keeps.refl s

theorem keeps_returnEntry (p : PortId) (f : FeedId) (s : State) (e : Nat) : Keeps q s (State.returnEntry p f s e) := by
  unfold State.returnEntry
  simp only
  split
  · exact keeps_setLive _ _ _ _
  · exact Keeps.refl s

theorem keeps_overRunning (g : FeedId → State → Nat → State) (hg : ∀ f s e, Keeps q s (g f s e)) (s : State) :
    Keeps q s (s.overRunning g) := by
  apply Keeps.foldl
  intro s f
  split
  · exact Keeps.foldl _ (hg f) _ s
  · exact Keeps.refl s

theorem keeps_portFailed (s : State) (p : PortId) : Keeps q s (s.portFailed p) :=
  (keeps_overRunning _ (keeps_failEntry p) s).walkLanes

theorem keeps_portReturned (s : State) (p : PortId) : Keeps q s (s.portReturned p) :=
  keeps_overRunning _ (keeps_returnEntry p) s

theorem keeps_handPortChange (s : State) (p : PortId) (old : PortState) : Keeps q s (s.handPortChange p old) := by
  have h := keeps_handReport (q := q) s (.portState p old (s.port p).state)
  unfold State.handPortChange
  simp only
  split
  · exact h.trans (keeps_portFailed _ _)
  · split
    · exact h.trans (keeps_portReturned _ _)
    · exact h

theorem keeps_startRevert (s : State) (f : FeedId) (e : Nat) (prot : Source) : Keeps q s (s.startRevert f e prot) :=
  (keeps_setLive s f e _).trans (keeps_subscribeFound _ _ _ _)

theorem keeps_tryRevert (s : State) (f : FeedId) (e : Nat) : Keeps q s (s.tryRevert f e) := by
  unfold State.tryRevert
  split
  · split
    · exact keeps_startRevert _ _ _ _
    · exact Keeps.refl s
  · exact Keeps.refl s

theorem keeps_countRevert (s : State) (f : FeedId) (e : Nat) : Keeps q s (s.countRevert f e) := by
  unfold State.countRevert
  simp only
  split
  · split
    · exact (keeps_setLive _ _ _ _).trans (keeps_tryRevert _ _ _)
    · exact keeps_setLive _ _ _ _
  · exact Keeps.refl s

/-! ### Head evaluation of the feed composers -/

theorem keeps_dropStale (s : State) (f : FeedId) (k : Nat) : Keeps q s (s.dropStale f k) := by
  unfold State.dropStale
  split
  · exact (keeps_release _ _ _).trans (keeps_count _ _ _)
  · exact Keeps.refl s

theorem keeps_dropStaleRun (f : FeedId) (tick : BitVec 32) (l : List Nat) (s : State) :
    Keeps q s (State.dropStaleRun f tick l s) := by
  induction l generalizing s with
  | nil => exact Keeps.refl s
  | cons k l ih =>
    simp only [State.dropStaleRun]
    split
    · exact (keeps_dropStale _ _ _).trans (ih _)
    · exact Keeps.refl s

theorem keeps_freshen (s : State) (f : FeedId) (e : Nat) (tick : BitVec 32) : Keeps q s (s.freshen f e tick) :=
  keeps_dropStaleRun f tick _ s

theorem keeps_seekRun (f : FeedId) (tick : BitVec 32) (l : List Nat) (s : State) :
    Keeps q s (State.seekRun f tick l s).1 := by
  induction l generalizing s with
  | nil => exact Keeps.refl s
  | cons k l ih =>
    simp only [State.seekRun]
    split
    · exact (keeps_dropStale _ _ _).trans (ih _)
    · split
      · exact Keeps.refl s
      · exact (keeps_release _ _ _).trans (ih _)

theorem keeps_evaluateInWait (s : State) (f : FeedId) (e : Nat) (tick : BitVec 32) : Keeps False s (s.evaluateInWait f e tick) := by
  have h := keeps_seekRun (q := False) f tick (s.cellsOf f e) s
  unfold State.evaluateInWait
  simp only
  split
  · exact h.trans (keeps_inPoint _ _ _)
  · exact h

theorem keeps_evaluateHead (tick : BitVec 32) (f : FeedId) (s : State) (e : Nat) : Keeps False s (State.evaluateHead tick f s e) := by
  unfold State.evaluateHead
  split
  · exact Keeps.refl s
  · exact keeps_freshen _ _ _ _
  · exact keeps_freshen _ _ _ _
  · exact keeps_evaluateInWait _ _ _ _
  · have h := keeps_freshen (q := False) s f e tick
    simp only
    split
    · have h' := h.trans (keeps_outPoint _ f e)
      split
      · exact h'.trans (keeps_evaluateInWait _ _ _ _)
      · exact h'.trans (keeps_freshen _ _ _ _)
    · exact h

theorem keeps_accrue (f : FeedId) (s : State) (e : Nat) : Keeps q s (State.accrue f s e) := keeps_setLive _ _ _ _

theorem keeps_subscribeEntries (s : State) (f : FeedId) : Keeps q s (s.subscribeEntries f) :=
  Keeps.foldl _ (fun s src => keeps_subscribeFound s f src false) _ s

/-! ### Writes of one part -/

theorem keeps_due (s : State) (d : Due) (h : d.walks = s.due.walks := by rfl) : Keeps q s { s with due := d } :=
  keeps_elsewhere rfl rfl h

theorem keeps_commits (s : State) (l : List Commit) : Keeps q s { s with commits := l } := keeps_elsewhere rfl rfl rfl

theorem keeps_handCommitResponse (s : State) (r : Response) : Keeps q s (s.handCommitResponse r) := by
  unfold State.handCommitResponse
  split <;> exact keeps_elsewhere rfl rfl rfl

/-! ### Feed composers -/

theorem keeps_sendFill (s : State) (f : FeedId) : Keeps q s (s.sendFill f) :=
  (keeps_setFeed s f _).trans (keeps_count _ _ _)

theorem keeps_sendEntry (s : State) (f : FeedId) (e k : Nat) (c : CellRecord) (tick : BitVec 32) :
    Keeps q s (s.sendEntry f e k c tick) := by
  have h : Keeps q s ((s.emit f (some (s.departCell f e c tick))).setLive f e
      { s.live f e with
        credit := (s.live f e).credit - s.unitCost, outCont := (s.live f e).outCont + 1,
        discPending := (s.live f e).discPending && !c.hdr.marked }) :=
    (keeps_setFeed s f _).trans (keeps_setLive _ _ _ _)
  unfold State.sendEntry
  simp only
  split
  · exact (h.trans (keeps_count _ _ _)).trans (keeps_release _ _ _)
  · exact h.trans (keeps_release _ _ _)

theorem keeps_sendSelected (s : State) (f : FeedId) (tick : BitVec 32) : Keeps q s (s.sendSelected f tick) := by
  unfold State.sendSelected
  split
  · exact keeps_sendFill _ _
  · split
    · exact keeps_sendFill _ _
    · split
      · exact keeps_sendFill _ _
      · exact keeps_sendEntry _ _ _ _ _ _

theorem keeps_depart (s : State) (f : FeedId) : Keeps q s (s.depart f) :=
  (((Keeps.foldl _ (keeps_accrue f) _ s).trans (Keeps.foldl _ (keeps_evaluateHead _ f) _ _)).trans
    (keeps_sendSelected _ _ _)).walkLanes

theorem keeps_sendPattern (s : State) (f : FeedId) : Keeps q s (s.sendPattern f) := keeps_setFeed s f _

theorem keeps_becomeRunning (s : State) (f : FeedId) : Keeps q s (s.becomeRunning f) := keeps_setFeed s f _

theorem keeps_enableFeed (s : State) (f : FeedId) : Keeps q s (s.enableFeed f) :=
  (keeps_setFeed s f _).trans (keeps_subscribeEntries _ _)

theorem keeps_leaveTest (s : State) (f : FeedId) : Keeps q s (s.leaveTest f) :=
  (keeps_setFeed s f _).trans (keeps_subscribeEntries _ _)

theorem keeps_enterTest (s : State) (f : FeedId) : Keeps q s (s.enterTest f) := by
  have h : Keeps False s (if s.feedNeeds f then (s.feedStop f).withdrawAll f else s) := by
    split
    · exact (keeps_feedStop _ _).trans (keeps_withdrawAll _ _)
    · exact Keeps.refl s
  exact (((h.trans (keeps_restEntries _ _)).trans (keeps_setFeed _ _ _)).trans (keeps_due _ _)).walkLanes

/-! ### Commits -/

theorem keeps_unlockAll (s : State) (fs : FeedSet) : Keeps q s (s.unlockAll fs) :=
  Keeps.foldl _ (fun s f => keeps_setMap s f { s.map f with locked := false }) _ s

theorem keeps_endCommit (s : State) (c : Commit) (res : Result) (l : List Byte) : Keeps q s (s.endCommit c res l) :=
  ((keeps_commits s _).trans (keeps_unlockAll _ _)).trans (keeps_handCommitResponse _ _)

theorem keeps_disableFeed (s : State) (f : FeedId) : Keeps q s (s.disableFeed f) := by
  have h := (((keeps_setFeed s f { s.feed f with state := .disabled, pendMode := .none, injectPending := false }).trans
    (keeps_feedStop _ f)).trans (keeps_withdrawAll _ f)).trans (keeps_restEntries _ f)
  unfold State.disableFeed
  simp only
  split
  · exact ((h.trans (keeps_endCommit _ _ _ _)).trans (keeps_due _ _)).walkLanes
  · exact (h.trans (keeps_due _ _)).walkLanes

theorem keeps_swapFeed (s : State) (f : FeedId) : Keeps q s (s.swapFeed f) :=
  (keeps_setMap s f _).trans (keeps_due _ _)

theorem keeps_swapSubscribes (old new t : State) (f : FeedId) : Keeps q t (State.swapSubscribes old new t f) := by
  unfold State.swapSubscribes
  split
  · exact ((Keeps.foldl _ (fun t src => keeps_takeUp t f src false) _ t).trans
      (Keeps.foldl _ (fun t src => keeps_subscribeFound t f src false) _ _)).trans
      (Keeps.foldl _ (fun t src => keeps_subscribeFound t f src true) _ _)
  · exact Keeps.refl t

theorem keeps_refresh (s : State) (f : FeedId) : Keeps q s (s.refresh f) := keeps_setMap s f _

theorem keeps_swap (s : State) (fs : FeedSet) : Keeps q s (s.swap fs) := by
  have hw : ∀ (new : State) (l : List FeedId) (t : State),
      Keeps q t (l.foldl (fun t f => (State.swapWithdraws s new f).foldl (fun t src => t.withdraw f src) t) t) := fun new l t =>
    Keeps.foldl _ (fun t f => Keeps.foldl _ (fun t src => keeps_withdraw t f src) _ t) l t
  have hs : ∀ (new : State) (l : List FeedId) (t : State), Keeps q t (l.foldl (State.swapSubscribes s new) t) :=
    fun new l t => Keeps.foldl _ (fun t f => keeps_swapSubscribes s new t f) l t
  exact (((Keeps.foldl _ keeps_swapFeed (feedList fs) s).trans (hw _ _ _)).trans (hs _ _ _)).trans
    (Keeps.foldl _ keeps_refresh _ _)

theorem keeps_trySwap (s : State) (c : Commit) : Keeps q s (s.trySwap c) := by
  unfold State.trySwap
  split
  · exact keeps_endCommit _ _ _ _
  · exact (keeps_swap _ _).trans (keeps_endCommit _ _ _ _)

theorem keeps_considerCommit (s : State) (c : Commit) : Keeps q s (s.considerCommit c) := by
  unfold State.considerCommit
  simp only
  split
  · exact (keeps_commits s _).trans (keeps_trySwap _ _)
  · split
    · exact (keeps_commits s _).trans (keeps_endCommit _ _ _ _)
    · exact keeps_commits s _

/-! ### Parts of a boundary -/

theorem keeps_changeAtCycle (s : State) (f : FeedId) : Keeps q s (s.changeAtCycle f) := by
  unfold State.changeAtCycle
  split
  · simp only
    split
    · exact (keeps_due s _).trans (keeps_becomeRunning _ _)
    · split
      · exact (keeps_due s _).trans (keeps_leaveTest _ _)
      · exact keeps_due s _
    · exact keeps_due s _
  · exact Keeps.refl s

theorem keeps_windowPart (s : State) (f : FeedId) (e : Nat) : Keeps q s (s.windowPart f e) := by
  unfold State.windowPart
  split
  · exact (keeps_expireWindow _ _ _).walkLanes
  · exact Keeps.refl s

theorem keeps_revertPart (s : State) (f : FeedId) (e : Nat) : Keeps q s (s.revertPart f e) := by
  unfold State.revertPart
  split
  · exact (keeps_due s _).trans (keeps_countRevert _ _ _)
  · exact Keeps.refl s

theorem keeps_lanePart (s : State) (l : LaneId) : Keeps q s (s.lanePart l) := by
  unfold State.lanePart
  split
  · exact (keeps_due s _).trans (keeps_evaluateLane _ _)
  · exact Keeps.refl s

theorem keeps_commitPart (s : State) (f : FeedId) : Keeps q s (s.commitPart f) := by
  unfold State.commitPart
  split
  · split
    · exact keeps_considerCommit _ _
    · exact Keeps.refl s
  · exact Keeps.refl s

theorem keeps_cyclePart (s : State) (p : CyclePart) : Keeps q s (s.cyclePart p) := by
  cases p with
  | feed f => exact keeps_changeAtCycle s f
  | window f e => exact keeps_windowPart s f e
  | revert f e => exact keeps_revertPart s f e
  | lane l => exact keeps_lanePart s l
  | commit f => exact keeps_commitPart s f

theorem keeps_cycleParts (s : State) (l : List CyclePart) : Keeps q s (s.cycleParts l) := Keeps.foldl _ keeps_cyclePart l s

theorem keeps_closeCycle (s : State) (p : Pace) : Keeps q s (s.closeCycle p) := by
  cases p
  · exact keeps_cycleParts _ _
  · exact Keeps.refl s

theorem keeps_slotOfFeed (s : State) (f : FeedId) : Keeps q s (s.slotOfFeed f) := by
  have h : Keeps q s (if (s.feed f).pendMode = .test then s.enterTest f else s.changeAtCycle f) := by
    split
    · exact keeps_enterTest _ _
    · exact keeps_changeAtCycle _ _
  unfold State.slotOfFeed
  simp only
  split
  · exact h.trans (keeps_depart _ _)
  · exact h.trans (keeps_sendPattern _ _)
  · exact h.trans (keeps_setFeed _ _ _)

theorem keeps_slotPartFeed (s : State) (f : FeedId) : Keeps q s (s.slotPartFeed f) := by
  unfold State.slotPartFeed
  split
  · exact (keeps_due s _).trans (keeps_slotOfFeed _ _)
  · exact Keeps.refl s

end Sys2Proof.Machine
end

section
/-! SUPPORT. What every command keeps: the queue of commands, the canonical forms, the sound stores, the ranges of the timebase, of
the counters and of the MLT's queues, and CP0 enabled. One lemma for each operation outside the boundary parties, whose part Acts and
Keeps say (chapters 1, 2, 8 and 9). -/

namespace Sys2Proof.Machine

/-- A port is enabled and not in DOWN. -/
def Port.On (q : Port) : Prop := q.state ≠ .down ∧ q.settings.enable = true

/-- What every command keeps, but for the queues of the control path. -/
structure Upholds (s t : State) : Prop where
  pending : t.pending = s.pending
  wf : s.wf = true → t.wf = true
  keeps : Keeps True s t
  counters : s.counters.inRange → t.counters.inRange
  reports : s.mlt.reportsInRange → t.mlt.reportsInRange
  responses : s.mlt.responses.length ≤ 16 → t.mlt.responses.length ≤ 16
  tbu : s.tbu.inRange → t.tbu.inRange
  national : (s.port 0).On → (t.port 0).On

/-- What an operation keeps that leaves the intake queue and REX alone. -/
structure Serves (s t : State) : Prop extends Upholds s t where
  intake : t.mgmt.intake = s.mgmt.intake
  held : t.mgmt.heldResponse = s.mgmt.heldResponse

theorem Upholds.refl (s : State) : Upholds s s := ⟨rfl, id, Keeps.refl s, id, id, id, id, id⟩

theorem Upholds.trans {s t u : State} (h : Upholds s t) (h' : Upholds t u) : Upholds s u :=
  ⟨h'.pending.trans h.pending, fun x => h'.wf (h.wf x), h.keeps.trans h'.keeps, fun x => h'.counters (h.counters x),
    fun x => h'.reports (h.reports x), fun x => h'.responses (h.responses x), fun x => h'.tbu (h.tbu x),
    fun x => h'.national (h.national x)⟩

namespace Serves

theorem refl (s : State) : Serves s s := ⟨Upholds.refl s, rfl, rfl⟩

theorem trans {s t u : State} (h : Serves s t) (h' : Serves t u) : Serves s u :=
  ⟨h.toUpholds.trans h'.toUpholds, h'.intake.trans h.intake, h'.held.trans h.held⟩

theorem foldl {β : Type} (g : State → β → State) (hg : ∀ s b, Serves s (g s b)) (l : List β) (s : State) :
    Serves s (l.foldl g s) := by
  induction l generalizing s with
  | nil => exact refl s
  | cons b l ih => exact (hg s b).trans (ih _)

end Serves

/-- The parties of a boundary keep all of it. -/
theorem Acts.serves {s t : State} (h : Acts s t) (k : Keeps True s t) : Serves s t :=
  ⟨⟨h.pending, h.wf, k, h.counters, h.reports, h.responses, by rw [h.tbu]; exact id, by rw [h.port]; exact id⟩, by rw [h.mgmt],
    by rw [h.mgmt]⟩

theorem Moves.serves {s t : State} (h : Moves s t) (k : Keeps True s t) : Serves s t := h.acts.serves k

/-! ### Writes of one part -/

/-- A write of the TBU, the MLT, the held commit responses or what is due. -/
theorem serves_clock (s : State) (c : Tbu) (m : Mlt) (l : List Response) (d : Due) (hc : s.tbu.inRange → c.inRange)
    (hm : s.mlt.reportsInRange → m.reportsInRange) (hr : s.mlt.responses.length ≤ 16 → m.responses.length ≤ 16)
    (hd : d.walks = s.due.walks) : Serves s { s with tbu := c, mlt := m, heldCommits := l, due := d } :=
  ⟨⟨rfl, id, keeps_elsewhere rfl rfl hd, id, hm, hr, hc, id⟩, rfl, rfl⟩

theorem serves_tbu (s : State) (c : Tbu) (hc : s.tbu.inRange → c.inRange) : Serves s { s with tbu := c } :=
  serves_clock s c s.mlt s.heldCommits s.due hc id id rfl

theorem serves_mlt (s : State) (m : Mlt) (hm : s.mlt.reportsInRange → m.reportsInRange)
    (hr : s.mlt.responses.length ≤ 16 → m.responses.length ≤ 16) : Serves s { s with mlt := m } :=
  serves_clock s s.tbu m s.heldCommits s.due id hm hr rfl

theorem serves_due (s : State) (d : Due) (hd : d.walks = s.due.walks) : Serves s { s with due := d } :=
  serves_clock s s.tbu s.mlt s.heldCommits d id id id hd

theorem serves_setPort (s : State) (p : PortId) (q : Port) (h : p = 0 → (s.port 0).On → q.On) : Serves s (s.setPort p q) := by
  refine ⟨⟨rfl, id, keeps_elsewhere rfl rfl rfl, id, id, id, id, fun on => ?_⟩, rfl, rfl⟩
  by_cases hp : p = 0
  · subst hp; rw [State.setPort_port]; exact h rfl on
  · rw [State.setPort_port_other s q hp]; exact on

theorem serves_handReport (s : State) (r : Report) : Serves s (s.handReport r) := (moves_handReport s r).serves (keeps_handReport s r)

theorem serves_count (s : State) (c : CounterId) (n : Nat) : Serves s (s.count c n) := (moves_count s c n).serves (keeps_count s c n)

theorem serves_handPortChange (s : State) (p : PortId) (old : PortState) : Serves s (s.handPortChange p old) :=
  (moves_handPortChange s p old).serves (keeps_handPortChange s p old)

/-! ### Boundaries of slots and cycles -/

/-- A lowered window leaves no entry VACANT that was not (R60, R123). -/
theorem Live.lowered_ne_vacant {v : Live} (h : v ≠ Live.vacant) : v.lowered ≠ Live.vacant := by
  unfold Live.lowered
  split
  · next hb =>
    intro e
    have : v.estate = .vacant := congrArg Live.estate e
    simp [Live.busy, this] at hb
  · exact h

theorem serves_openCycle (s : State) : Serves s s.openCycle := by
  refine ⟨⟨rfl, fun h => ?_, keeps_elsewhere rfl rfl rfl, id, id, id, id, id⟩, rfl, rfl⟩
  rw [State.wf_iff] at h ⊢
  obtain ⟨hstore, hmaps, hrecords⟩ := h
  refine ⟨hstore, fun f => ?_, hrecords⟩
  have hmap : s.openCycle.map f = (s.map f).lowered := by simp [State.openCycle, State.map, Vector.get_eq_getElem]
  have hf := (FeedMap.wf_iff _).1 (hmaps f)
  rw [hmap, FeedMap.wf_iff]
  exact ⟨hf.1, hf.2.1, Table.wf_map hf.2.2 Live.lowered fun _ => Live.lowered_ne_vacant⟩

/-- The slot period in force lies in the ranges of the table before R1. -/
theorem Tbu.period_inRange {t : Tbu} (h : t.inRange) : 64 ≤ t.period.1 ∧ t.period.1 ≤ 65535 ∧ t.period.2 ≤ 65535 := by
  obtain ⟨lo, hi, frac, pend, -⟩ := h
  unfold Tbu.period
  cases hp : t.pendSlotPeriod with
  | none => exact ⟨lo, hi, frac⟩
  | some p => exact pend p hp

/-- The cycle length in force from a cycle boundary on lies in its range (R12). -/
theorem Tbu.nextLen_inRange {t : Tbu} (h : t.inRange) :
    256 ≤ t.pendCycleLen.getD t.cycleLen ∧ t.pendCycleLen.getD t.cycleLen ≤ 16384 := by
  obtain ⟨-, -, -, -, lo, hi, pend, -⟩ := h
  cases hp : t.pendCycleLen with
  | none => exact ⟨lo, hi⟩
  | some c => exact pend c hp

theorem Tbu.nextSlot_inRange {t : Tbu} (h : t.inRange) : t.nextSlot.inRange := by
  obtain ⟨plo, phi, pfrac⟩ := Tbu.period_inRange h
  obtain ⟨-, -, -, -, rest⟩ := h
  exact ⟨plo, phi, pfrac, by simp [Tbu.nextSlot], rest⟩

theorem Tbu.nextIndex_inRange {t : Tbu} (h : t.inRange) : t.nextIndex.inRange := by
  obtain ⟨len_lo, len_hi⟩ := Tbu.nextLen_inRange h
  obtain ⟨slo, shi, sfrac, spend, llo, lhi, lpend, -, run, ref⟩ := h
  unfold Tbu.nextIndex
  split
  · next hlt => exact ⟨slo, shi, sfrac, spend, llo, lhi, lpend, hlt, run, ref⟩
  · exact ⟨slo, shi, sfrac, spend, len_lo, len_hi, by simp, by simp only; omega, run, ref⟩

theorem serves_openSlot (s : State) : Serves s s.openSlot := by
  have h : Serves s
      { s with
        tbu := s.tbu.nextSlot.nextIndex
        due :=
          { s.due with slotFeeds := BitVec.allOnes 8, monitor := true, epochPassed := s.tbu.pendEpoch.isSome } } :=
    serves_clock s _ s.mlt s.heldCommits _ (fun x => Tbu.nextIndex_inRange (Tbu.nextSlot_inRange x)) id id rfl
  unfold State.openSlot
  simp only
  split
  · exact h.trans (serves_openCycle _)
  · exact h

theorem serves_cycleParts (s : State) (l : List CyclePart) : Serves s (s.cycleParts l) :=
  (acts_cycleParts s l).serves (keeps_cycleParts s l)

theorem serves_closeCycle (s : State) (p : Pace) : Serves s (s.closeCycle p) := (acts_closeCycle s p).serves (keeps_closeCycle s p)

theorem serves_lanePart (s : State) (l : LaneId) : Serves s (s.lanePart l) := (acts_lanePart s l).serves (keeps_lanePart s l)

theorem serves_slotPartFeed (s : State) (f : FeedId) : Serves s (s.slotPartFeed f) :=
  (acts_slotPartFeed s f).serves (keeps_slotPartFeed s f)

theorem serves_changeAtCycle (s : State) (f : FeedId) : Serves s (s.changeAtCycle f) :=
  (acts_changeAtCycle s f).serves (keeps_changeAtCycle s f)

theorem serves_considerCommit (s : State) (c : Commit) : Serves s (s.considerCommit c) :=
  (acts_considerCommit s c).serves (keeps_considerCommit s c)

/-- The monitor link's cell takes a response or a report from its queue, or neither (R158). -/
theorem serves_monitorSend (s : State) : Serves s s.monitorSend := by
  unfold State.monitorSend
  split
  · next r t h =>
    exact serves_mlt s _ id fun room => by
      rw [h, List.length_cons] at room
      exact Nat.le_of_succ_le room
  · split
    · next q t h =>
      exact serves_mlt s _ (fun ⟨room, drop⟩ => ⟨by rw [h, List.length_cons] at room; exact Nat.le_of_succ_le room, drop⟩) id
    · exact serves_mlt s _ id id

theorem serves_slotPart (s : State) (p : SlotPart) : Serves s (s.slotPart p) := by
  cases p with
  | feed f => exact serves_slotPartFeed s f
  | monitor =>
    simp only [State.slotPart, State.slotPartMonitor]
    split
    · exact Serves.trans (serves_due s { s.due with monitor := false } rfl) (serves_monitorSend _)
    · exact Serves.refl s

theorem serves_slotParts (s : State) (l : List SlotPart) : Serves s (s.slotParts l) := Serves.foldl _ serves_slotPart l s

theorem serves_slotBoundary (s : State) (order : List SlotPart) (pace : Pace) : Serves s (s.slotBoundary order pace) := by
  have met : Serves s s.meetSlot := by
    unfold State.meetSlot
    split
    · exact serves_openSlot s
    · exact Serves.refl s
  refine (met.trans (serves_slotParts _ order)).trans ?_
  cases pace with
  | whole => exact Serves.trans (serves_slotParts _ allSlotParts) (serves_closeCycle _ .whole)
  | listed => exact Serves.refl _

theorem serves_cycleBoundary (s : State) (order : List CyclePart) (pace : Pace) : Serves s (s.cycleBoundary order pace) := by
  have met : Serves s (if s.cycleReached then s.openSlot else s) := by
    split
    · exact serves_openSlot s
    · exact Serves.refl s
  exact (met.trans (serves_cycleParts _ order)).trans (serves_closeCycle _ pace)

/-! ### Seconds, epochs and marks -/

theorem serves_countSecond (s : State) : Serves s s.countSecond :=
  serves_clock s _ _ s.heldCommits s.due id id id rfl

/-- A transfer moves the live counters into the held ones (R165). -/
theorem serves_transfer (s : State) : Serves s s.transfer :=
  ⟨⟨rfl, id, keeps_elsewhere rfl rfl rfl, fun h => ⟨fun i => by simp [State.transfer, Vector.get_eq_getElem], h.1⟩, id, id, id, id⟩,
    rfl, rfl⟩

theorem serves_transferPart (s : State) : Serves s s.transferPart := by
  unfold State.transferPart
  split
  · exact ((serves_transfer s).trans (serves_mlt s.transfer { s.transfer.mlt with secsLeft := some s.transfer.mlt.period } id id)).trans
      (serves_handReport _ _)
  · exact Serves.refl s

theorem Tbu.epochTaken_inRange {t : Tbu} (h : t.inRange) (v : BitVec 16) : (t.epochTaken v).inRange := by
  obtain ⟨plo, phi, pfrac⟩ := Tbu.period_inRange h
  obtain ⟨len_lo, len_hi⟩ := Tbu.nextLen_inRange h
  obtain ⟨-, -, -, -, -, -, -, -, run, ref⟩ := h
  exact ⟨plo, phi, pfrac, by simp [Tbu.epochTaken], len_lo, len_hi, by simp [Tbu.epochTaken],
    by simp only [Tbu.epochTaken]; omega, run, ref⟩

theorem serves_openEpoch (s : State) : Serves s s.openEpoch := by
  unfold State.openEpoch
  split
  · next v _ =>
    exact Serves.trans
      (serves_clock s (s.tbu.epochTaken v) s.mlt s.heldCommits { s.due with slotFeeds := 0, monitor := false }
        (fun h => Tbu.epochTaken_inRange h v) id id rfl)
      (serves_openCycle _)
  · exact Serves.refl s

theorem serves_openSecond (s : State) (pace : SecondPace) : Serves s (s.openSecond pace) := by
  have counted := serves_countSecond s
  cases pace with
  | whole =>
    simp only [State.openSecond]
    split
    · exact ((counted.trans (serves_openEpoch _)).trans (serves_closeCycle _ _)).trans (serves_transferPart _)
    · exact counted.trans (serves_transferPart _)
  | transferFirst => exact (counted.trans (serves_transferPart _)).trans (serves_openEpoch _)
  | epochFirst => exact (counted.trans (serves_openEpoch _)).trans (serves_transferPart _)

theorem serves_secondBoundary (s : State) (pace : SecondPace) : Serves s (s.secondBoundary pace) := by
  cases hs : s.secondReached with
  | true =>
    obtain ⟨n, -, opened⟩ := State.secondBoundary_of_reached hs pace
    have awaited : Serves s (s.awaitSecond n) := serves_tbu s _ id
    rw [opened]
    exact awaited.trans (serves_openSecond _ pace)
  | false =>
    rw [State.secondBoundary_of_not_reached hs]
    exact Serves.refl s

theorem serves_meetEpoch (s : State) : Serves s s.meetEpoch := by
  unfold State.meetEpoch
  split
  · exact serves_secondBoundary s _
  · exact Serves.refl s

/-- A change of RefState with its report, and a TBU in range after it (R7). -/
theorem serves_setRef (s : State) (r : RefState) (c : Tbu) (hc : s.tbu.inRange → c.inRange) :
    Serves s { s.setRef r with tbu := c } := by
  have h := moves_handReport { s with tbu := { s.tbu with refState := r } } (.timebaseState s.tbu.refState r)
  have heq : ({ s.setRef r with tbu := c } : State) = { s with tbu := c, mlt := (s.setRef r).mlt } := by
    simp only [State.setRef, State.handReport]
    split <;> rfl
  rw [heq]
  exact serves_clock s c _ s.heldCommits s.due hc h.reports (fun room => by rw [State.setRef, h.responses]; exact room) rfl

/-- A re-phase after which the TBU is in range (R3). -/
theorem serves_rephase {s u : State} (pace : SecondPace)
    (h : Serves s { u with tbu := { u.tbu with nextSecond := u.tbu.afterMark, expMark := some u.tbu.afterMark } }) :
    Serves s (u.rephase pace) := by
  unfold State.rephase
  simp only
  split
  · exact h.trans (serves_openSecond _ pace)
  · exact h

theorem Tbu.relockRun_le {t : Tbu} (h : t.inRange) : t.relockRun ≤ 2 := by
  obtain ⟨-, -, -, -, -, -, -, -, run, -⟩ := h
  exact run

/-- A TBU in LOCKED with ExpMark held is in range wherever its other items are (R3, R6). -/
theorem Tbu.inRange_locked {t u : Tbu} (h : t.inRange)
    (hu : u =
      { t with
        refState := .locked, nextSecond := u.nextSecond, expMark := u.expMark, relockRun := u.relockRun,
        lastMark := u.lastMark })
    (hexp : u.expMark.isSome) (hrun : u.relockRun ≤ 2) : u.inRange := by
  obtain ⟨slo, shi, sfrac, spend, llo, lhi, lpend, idx, -, -⟩ := h
  rw [hu]
  exact ⟨slo, shi, sfrac, spend, llo, lhi, lpend, idx, hrun, by simpa using hexp⟩

theorem serves_markRun (s : State) {n : Nat} (hn : n ≤ 2) : Serves s (s.markRun n) :=
  serves_tbu s _ fun ⟨slo, shi, sfrac, spend, llo, lhi, lpend, idx, _, ref⟩ =>
    ⟨slo, shi, sfrac, spend, llo, lhi, lpend, idx, hn, ref⟩

theorem serves_judgeMark (s : State) (pace : SecondPace) : Serves s (s.judgeMark pace) := by
  unfold State.judgeMark
  split
  · refine serves_rephase pace (serves_setRef s .locked _ fun h => Tbu.inRange_locked h ?_ rfl ?_)
    · rw [State.setRef_tbu]
    · rw [State.setRef_tbu]; exact Tbu.relockRun_le (t := s.tbu) h
  · next href =>
    split
    · exact serves_rephase pace (serves_tbu s _ fun h =>
        Tbu.inRange_locked h (by rw [← href]) rfl (Tbu.relockRun_le (t := s.tbu) h))
    · exact Serves.refl s
  · unfold State.holdoverMark
    split
    · exact serves_markRun s (by decide)
    · split
      · split
        · exact serves_markRun s (by decide)
        · refine serves_rephase pace (serves_setRef s .locked _ fun h => Tbu.inRange_locked h ?_ rfl ?_)
          · simp only [State.endRun_tbu, State.setRef_tbu]
          · simp [State.endRun_tbu]
      · exact serves_markRun s (by decide)

theorem serves_secondMark (s : State) (pace : SecondPace) : Serves s (s.secondMark pace) := by
  unfold State.secondMark
  split
  · exact Serves.refl s
  · exact serves_judgeMark s pace

theorem serves_enterHoldover (s : State) : Serves s s.enterHoldover :=
  serves_setRef s .holdover _ fun ⟨slo, shi, sfrac, spend, llo, lhi, lpend, idx, _, _⟩ => by
    rw [State.endRun_tbu, State.setRef_tbu]
    exact ⟨slo, shi, sfrac, spend, llo, lhi, lpend, idx, by simp, by simp⟩

end Sys2Proof.Machine
end

section
/-! SUPPORT. What arrivals, requests and REX keep (chapters 2, 8 and the rules that own the requests), and with them every command. -/

namespace Sys2Proof.Machine

/-! ### Arrivals (R21 to R32) -/

theorem serves_changePort (s : State) (p : PortId) (q : Port) (h : p = 0 → (s.port 0).On → q.On) : Serves s (s.changePort p q) := by
  unfold State.changePort
  simp only
  split
  · exact serves_setPort s p q h
  · exact (serves_setPort s p q h).trans (serves_handPortChange _ _ _)

/-- A write of a port that keeps its state and its settings. -/
theorem serves_setPort_kept (s : State) (p : PortId) (q : Port) (hstate : q.state = (s.port p).state := by rfl)
    (hset : q.settings = (s.port p).settings := by rfl) : Serves s (s.setPort p q) :=
  serves_setPort s p q fun hp on => by
    subst hp
    exact ⟨by rw [hstate]; exact on.1, by rw [hset]; exact on.2⟩

theorem serves_searchCell (s : State) (p : PortId) (bits : List Bool) : Serves s (s.searchCell p bits) := by
  unfold State.searchCell
  simp only
  split
  · split
    · exact (serves_setPort_kept s p _).trans (serves_handReport _ _)
    · exact serves_setPort_kept s p _
  · exact serves_setPort_kept s p _

theorem serves_lockedCell (s : State) (p : PortId) (bits : List Bool) : Serves s (s.lockedCell p bits) := by
  have counted : Serves s ((s.setPort p { s.port p with chkGen := (genRun Config.patternBits (s.port p).chkGen).2 }).count
      (.port p .patternErr) (mismatches (genRun Config.patternBits (s.port p).chkGen).1 bits)) :=
    Serves.trans (serves_setPort_kept s p { s.port p with chkGen := (genRun Config.patternBits (s.port p).chkGen).2 })
      (serves_count _ _ _)
  unfold State.lockedCell
  simp only
  split
  · exact counted.trans (serves_setPort_kept _ p _)
  · split
    · exact (counted.trans (serves_setPort_kept _ p _)).trans (serves_handReport _ _)
    · exact counted.trans (serves_setPort_kept _ p _)

theorem serves_checkCell (s : State) (p : PortId) (payload : List Byte) : Serves s (s.checkCell p payload) := by
  unfold State.checkCell
  split
  · exact serves_searchCell _ _ _
  · exact serves_lockedCell _ _ _

theorem serves_offerCell (s : State) (p : PortId) (h : Header) (payload : List Byte) : Serves s (s.offerCell p h payload) :=
  (moves_offerCell s p h payload).serves (keeps_offerCell s p h payload)

theorem serves_addressCell (s : State) (payload : List Byte) : Serves s (s.addressCell payload) :=
  ⟨⟨rfl, id, keeps_elsewhere rfl rfl rfl, id, id, id, id, id⟩, rfl, rfl⟩

theorem serves_route (s : State) (p : PortId) (h : Header) (payload : List Byte) : Serves s (s.route p h payload) := by
  unfold State.route
  split
  · split
    · exact serves_checkCell _ _ _
    · exact serves_offerCell _ _ _ _
  · exact Serves.refl s
  · exact Serves.refl s
  · split
    · exact serves_addressCell _ _
    · exact Serves.refl s

/-- A window that closes leaves its port's settings alone, and moves it at most between LIVE and ABSENT (R28, R29). -/
theorem Port.closeWindow_on {q : Port} (h : q.On) (full : Bool) : (q.closeWindow full).On := by
  obtain ⟨hstate, hset⟩ := h
  unfold Port.closeWindow
  simp only
  split
  · split
    · exact ⟨by simp, hset⟩
    · exact ⟨hstate, hset⟩
  · exact ⟨hstate, hset⟩
  · split
    · exact ⟨by simp, hset⟩
    · exact ⟨hstate, hset⟩
  · exact ⟨hstate, hset⟩
  · exact ⟨hstate, hset⟩

theorem Port.countWindow_on {q : Port} (h : q.On) (programme : Bool) : (q.countWindow programme).On := by
  unfold Port.countWindow
  simp only
  split
  · exact Port.closeWindow_on h _
  · exact h

/-- A hunt leaves a port in HUNT or LIVE (R22). -/
theorem Port.hunt_on {q : Port} (h : q.On) (unit : List Byte) : (q.hunt unit).On := by
  obtain ⟨hstate, hset⟩ := h
  unfold Port.hunt
  split
  · split
    · exact ⟨by simp, hset⟩
    · exact ⟨hstate, hset⟩
  · exact ⟨hstate, hset⟩

theorem serves_badUnit (s : State) (p : PortId) (unit : List Byte) : Serves s (s.badUnit p unit) := by
  have counted := serves_count s (.port p .hdrErr) 1
  unfold State.badUnit
  simp only
  split
  · exact counted.trans (serves_changePort _ p _ fun hp on => by subst hp; exact ⟨by simp, on.2⟩)
  · exact counted.trans (serves_setPort_kept _ p _)

/-- A unit with a correct header up to its hand-over to the control receiver (R24 to R28). -/
def State.counted (s : State) (p : PortId) (unit : List Byte) : State :=
  let h := unitHeader unit
  let a := s.setPort p { s.port p with badRun := 0, align := [] }
  let b := if kindTagAgree h then a.route p h (unitPayload unit) else a
  b.changePort p ((b.port p).countWindow (countsAsProgramme h))

theorem serves_counted (s : State) (p : PortId) (unit : List Byte) : Serves s (s.counted p unit) := by
  have examined : Serves s (s.setPort p { s.port p with badRun := 0, align := [] }) := serves_setPort_kept s p _
  unfold State.counted
  simp only
  refine Serves.trans ?_ (serves_changePort _ p _ fun hp on => by subst hp; exact Port.countWindow_on on _)
  split
  · exact examined.trans (serves_route _ _ _ _)
  · exact examined

theorem serves_lose (s : State) (p : PortId) : Serves s (s.lose p) :=
  serves_changePort s p _ fun hp on => by subst hp; exact ⟨by simp, on.2⟩

/-! ### Requests -/

theorem serves_setSlotPeriod (s : State) (i f : BitVec 16) : Serves s (s.applySetSlotPeriod i f).1 :=
  serves_tbu s _ fun ⟨slo, shi, sfrac, _, rest⟩ => by
    refine ⟨slo, shi, sfrac, fun p hp => ?_, rest⟩
    have := f.isLt
    have := i.isLt
    simp only [Option.some.injEq] at hp
    subst hp
    simp only [clampTo_word]
    omega

theorem clampTo_bounds {lo hi : Nat} (h : lo ≤ hi) (v : Nat) : lo ≤ clampTo lo hi v ∧ clampTo lo hi v ≤ hi := by
  unfold clampTo
  split
  · omega
  · split <;> omega

theorem serves_setCycleLength (s : State) (l : BitVec 16) : Serves s (s.applySetCycleLength l).1 := by
  unfold State.applySetCycleLength
  simp only
  split
  · exact Serves.refl s
  · split
    · exact Serves.refl s
    · split
      · exact Serves.refl s
      · refine serves_tbu s _ fun ⟨slo, shi, sfrac, spend, llo, lhi, _, rest⟩ =>
          ⟨slo, shi, sfrac, spend, llo, lhi, fun c hc => ?_, rest⟩
        obtain rfl := Option.some.inj hc
        exact clampTo_bounds (by decide) _

theorem serves_setEpoch (s : State) (v : BitVec 16) : Serves s (s.applySetEpoch v).1 := serves_tbu s _ id

theorem serves_judgeCongestion (s : State) (p : PortId) : Serves s (s.judgeCongestion p) :=
  (moves_judgeCongestion s p).serves (keeps_judgeCongestion s p)

theorem serves_enablePort (s : State) (p : PortId) : Serves s (s.enablePort p) := by
  unfold State.enablePort
  simp only
  split
  · exact (serves_setPort s p _ fun hp on => by subst hp; exact ⟨by simp, on.2⟩).trans (serves_handPortChange _ _ _)
  · exact Serves.refl s

/-- CP0 is never set off: another port is (R18, R20). -/
theorem serves_disablePort (s : State) {p : PortId} (hp : p ≠ 0) : Serves s (s.disablePort p) := by
  unfold State.disablePort
  simp only
  split
  · exact Serves.refl s
  · exact ((serves_setPort s p _ fun h => absurd h hp).trans (serves_handPortChange _ _ _)).trans
      ((moves_purge _ _).serves (keeps_purge _ _))

theorem serves_writePort (s : State) (p : PortId) (c : PortParams) (enable : Bool) (tag : Option Tag)
    (h : p = 0 → portListed c 0 = true → enable = true) : Serves s (s.writePort p c enable tag) := by
  have written : Serves s ((s.setPort p (s.resetPort (s.port p) c ((s.port p).settings.changed c enable tag))).handCheckerReset p
      (portListed c 8) (s.port p).chkState) := by
    refine Serves.trans (serves_setPort s p (s.resetPort (s.port p) c ((s.port p).settings.changed c enable tag)) fun hp on => ?_) ?_
    · subst hp
      refine ⟨on.1, ?_⟩
      simp only [State.resetPort, Settings.changed]
      split
      · next listed => exact h rfl listed
      · exact on.2
    · unfold State.handCheckerReset
      split
      · exact serves_handReport _ _
      · exact Serves.refl _
  unfold State.writePort
  simp only
  generalize (s.setPort p _).handCheckerReset p _ _ = a at written ⊢
  have judged : Serves s (if portListed c 1 then a.judgeCongestion p else a) := by
    split
    · exact written.trans (serves_judgeCongestion _ _)
    · exact written
  generalize (if portListed c 1 then a.judgeCongestion p else a) = b at judged ⊢
  split
  · next listed =>
    split
    · exact judged.trans (serves_enablePort _ _)
    · next off => exact judged.trans (serves_disablePort _ fun hp => off (h hp listed))
  · exact judged

theorem serves_setPortRequest (s : State) (c : PortParams) : Serves s (s.applySetPort c).1 := by
  unfold State.applySetPort
  split
  · split
    · exact Serves.refl s
    · next hnat =>
      split
      · exact Serves.refl s
      · exact serves_writePort _ _ _ _ _ fun hp listed => by
          simpa [hp, listed] using hnat
  · exact Serves.refl s

theorem serves_setMap {s : State} {f : FeedId} {m : FeedMap} (h : (s.map f).wf = true → m.wf = true) : Serves s (s.setMap f m) :=
  (moves_setMap s f m h).serves (keeps_setMap s f m)

theorem serves_writeShadows (s : State) (fs : FeedSet) (e : Nat) (x : MapEntry) : Serves s (s.writeShadows fs e x) :=
  Serves.foldl _ (fun _ _ => serves_setMap fun h =>
    FeedMap.setBank_wf h _ (Table.wf_set (FeedMap.bank_wf h _) e x)) _ s

theorem serves_writeMapEntry (s : State) (p : MapParams) : Serves s (s.applyWriteMapEntry p).1 := by
  unfold State.applyWriteMapEntry
  simp only
  split
  · exact Serves.refl s
  · split
    · split
      · exact Serves.refl s
      · exact serves_writeShadows _ _ _ _
    · exact Serves.refl s

theorem serves_clearMapEntry (s : State) (fs e : BitVec 8) : Serves s (s.applyClearMapEntry fs e).1 := by
  unfold State.applyClearMapEntry
  split
  · exact Serves.refl s
  · split
    · split
      · exact Serves.refl s
      · exact serves_writeShadows _ _ _ _
    · exact Serves.refl s

theorem serves_commitMap (s : State) (tag : BitVec 16) (fs : FeedSet) : Serves s (s.applyCommitMap tag fs).1 := by
  unfold State.applyCommitMap
  split
  · exact Serves.refl s
  · have locked := Serves.foldl (fun t f => t.setMap f { t.map f with locked := true }) (fun _ _ => serves_setMap id) (feedList fs) s
    exact locked.trans ((acts_commits _ _).serves (keeps_commits _ _))

theorem serves_setFeed (s : State) (f : FeedId) (x : Feed) : Serves s (s.setFeed f x) := (acts_setFeed s f x).serves (keeps_setFeed s f x)

theorem serves_changeFeed (s : State) (f : FeedId) (m : FeedMode) : Serves s (s.changeFeed f m) := by
  have disabled := (acts_disableFeed s f).serves (keeps_disableFeed s f)
  unfold State.changeFeed
  split
  case h_2 | h_3 | h_4 => exact disabled
  case h_5 => exact (acts_enableFeed s f).serves (keeps_enableFeed s f)
  all_goals exact serves_setFeed _ _ _

theorem serves_setFeedRequest (s : State) (f m : BitVec 8) (t : BitVec 16) : Serves s (s.applySetFeed f m t).1 := by
  unfold State.applySetFeed
  split
  · next f _ t _ _ _ =>
    split
    · have given : Serves s (s.giveTestTag f t) := by
        unfold State.giveTestTag
        split
        · exact serves_setFeed _ _ _
        · exact Serves.refl s
      exact given.trans (serves_changeFeed _ _ _)
    · exact Serves.refl s
  · exact Serves.refl s

theorem serves_inject (s : State) (f : BitVec 8) : Serves s (s.applyInject f).1 := by
  unfold State.applyInject
  split
  · split
    · exact serves_setFeed _ _ _
    · exact Serves.refl s
  · exact Serves.refl s

theorem serves_setLane (s : State) (l : LaneId) (x : Lane) : Serves s (s.setLane l x) := (moves_setLane s l x).serves (keeps_setLane s l x)

theorem serves_reach (s : State) (l : LaneId) (r : Nat) : Serves s (s.reach l r) := (moves_reach s l r).serves (keeps_reach s l r)

/-- A record of a WRITE-SPLICE-RECORD is PENDING (R106). -/
theorem writtenRecord_pending {p : SpliceParams} {n : Nat} {x : SpliceRecord} (h : writtenRecord p n = some x) :
    x.status = .pending := by
  unfold writtenRecord at h
  split at h
  · split at h
    · cases h
    · obtain rfl := Option.some.inj h; rfl
  · cases h

theorem serves_reachRewritten (r : Nat) (s : State) (l : LaneId) : Serves s (State.reachRewritten r s l) := by
  unfold State.reachRewritten
  simp only
  split
  · exact (serves_setLane _ _ _).trans (serves_reach _ _ _)
  · exact Serves.refl s

theorem serves_writeSpliceRecord (s : State) (p : SpliceParams) : Serves s (s.applyWriteSpliceRecord p).1 := by
  unfold State.applyWriteSpliceRecord
  simp only
  split
  · next r x _ hx =>
    split
    · exact Serves.refl s
    · have written : Serves s (s.setRecord r x) := (moves_setRecord s r x).serves
        (keeps_setRecord_of_status s r (by rw [writtenRecord_pending hx]; decide))
      have reached := Serves.foldl _ (serves_reachRewritten r) allLanes (s.setRecord r x)
      dsimp only
      exact written.trans reached
  · exact Serves.refl s

theorem serves_startLane (s : State) (l : BitVec 8) (h : BitVec 16) : Serves s (s.applyStartLane l h).1 := by
  unfold State.applyStartLane
  split
  · split
    · exact (serves_setLane _ _ _).trans (serves_reach _ _ _)
    · exact Serves.refl s
  · exact Serves.refl s

theorem serves_abandon (s : State) (l : LaneId) : Serves s (s.abandon l) := by
  have abandoned : Serves s (s.setRecord (s.lane l).curRec { s.record (s.lane l).curRec with status := .abandoned }) :=
    (moves_setRecord _ _ _).serves (keeps_setRecord_of_status s _ (by simp))
  unfold State.abandon
  simp only
  exact ((abandoned.trans ((moves_endMarks _ _ _).serves (keeps_endMarks _ _ _))).trans (serves_handReport _ _)).trans
    (serves_setLane _ _ _)

theorem serves_stopLane (s : State) (l : BitVec 8) : Serves s (s.applyStopLane l).1 := by
  unfold State.applyStopLane
  split
  · refine Serves.trans ?_ (serves_due _ _ rfl)
    unfold State.stopByState
    split
    · exact serves_setLane _ _ _
    · exact serves_setLane _ _ _
    · exact serves_abandon _ _
    · exact serves_setLane _ _ _
    · exact Serves.refl s
    · exact Serves.refl s
  · exact Serves.refl s

theorem serves_setReporting (s : State) (p : ReportingParams) : Serves s (s.applySetReporting p).1 := by
  unfold State.applySetReporting
  split
  · exact serves_mlt s _ id id
  · exact Serves.refl s

theorem serves_latchCounters (s : State) : Serves s s.applyLatchCounters.1 := by
  unfold State.applyLatchCounters
  split
  · exact Serves.refl s
  · exact serves_transfer s

theorem serves_setGroups (s : State) (p : GroupParams) : Serves s (s.applySetGroups p).1 := by
  unfold State.applySetGroups
  split
  · exact ⟨⟨rfl, id, keeps_elsewhere rfl rfl rfl, id, id, id, id, id⟩, rfl, rfl⟩
  · exact Serves.refl s

end Sys2Proof.Machine
end

section
/-! PROOFS. What REX and every command keep, and with it the statements on what every step keeps (chapters 1 to 9) and that every
command completes. -/

namespace Sys2Proof.Machine

/-! ### REX (R148 to R151) -/

/-- At power-up the free pool is every slot in order, slot 0 on top (R38, R58). -/
theorem Store.powerUp_stack : Store.powerUp.pool.stack = List.range 16384 := by
  have fresh : Config.cellSlots - Store.powerUp.pool.fresh = 16384 := rfl
  have freed : Store.powerUp.pool.freed = [] := rfl
  rw [FreePool.stack, fresh, freed, List.nil_append]
  exact (List.map_congr_left fun k _ => Nat.zero_add k).trans (List.map_id _)

/-- The store and the stream table at power-up are sound (R58). -/
theorem Store.powerUp_sound : Store.powerUp.Sound := by
  have noCell : ∀ i, Store.powerUp.cell i = none := fun _ => rfl
  have unused : ∀ k, Store.powerUp.stream k = StreamRecord.unused := fun _ => rfl
  refine ⟨rfl, ⟨fun j k _ _ o => ?_, fun k f h => ?_⟩, ?_, fun i => ?_, fun i h => ?_⟩
  · rw [unused] at o; cases o
  · rw [unused] at h; simp [StreamRecord.unused, hasFeed] at h
  · rw [Store.powerUp_stack]; exact List.nodup_range
  · rw [Store.powerUp_stack, List.mem_range]; simp [noCell]
  · rw [noCell] at h; cases h

theorem State.powerUp_recordsSettled (straps : BitVec 12) : (State.powerUp straps).RecordsSettled :=
  ⟨rfl, fun _ h => by cases h⟩

theorem State.powerUp_wf (straps : BitVec 12) : (State.powerUp straps).wf = true := by
  rw [State.wf_iff]
  refine ⟨rfl, fun f => ?_, rfl⟩
  have : (State.powerUp straps).map f = FeedMap.powerUp := by simp [State.powerUp, State.map, Vector.get_eq_getElem]
  rw [this]
  rfl

theorem Counters.powerUp_inRange : Counters.powerUp.inRange :=
  ⟨fun i => by simp [Counters.powerUp, Vector.get_eq_getElem], fun i => by simp [Counters.powerUp, Vector.get_eq_getElem]⟩

theorem serves_softReset (s : State) : Serves s s.softReset := by
  have port : s.softReset.port 0 = (s.port 0).softReset := rfl
  refine ⟨⟨rfl, fun _ => ?_, ⟨fun _ => Store.powerUp_sound, fun _ => ⟨rfl, fun _ h => by cases h⟩, fun _ h => h⟩,
    fun _ => Counters.powerUp_inRange, fun _ => ⟨by simp [State.softReset, Mlt.softReset, Mlt.powerUp], by
      simp [State.softReset, Mlt.softReset, Mlt.powerUp]⟩, id, id, fun on => by rw [port]; exact on⟩, rfl, rfl⟩
  exact State.powerUp_wf s.mgmt.unitAddr

theorem serves_applyRequest (s : State) (q : Taken) : Serves s (s.applyRequest q).1 := by
  have read : ∀ {inRange : Prop} {a : Answered}, s.AnswersRead inRange a → Serves s a.1 := by
    rintro _ _ (⟨-, l, rfl⟩ | ⟨-, rfl⟩) <;> exact Serves.refl s
  unfold State.applyRequest
  split
  · exact serves_setSlotPeriod _ _ _
  · exact serves_setCycleLength _ _
  · exact serves_setEpoch _ _
  · exact read s.applyReadTimebase_answers
  · exact serves_setPortRequest _ _
  · exact read (s.applyReadPort_answers _)
  · exact serves_writeMapEntry _ _
  · exact serves_clearMapEntry _ _ _
  · exact serves_commitMap _ _ _
  · exact read (s.applyReadMapEntry_answers _ _ _)
  · exact serves_setFeedRequest _ _ _ _
  · exact read (s.applyReadFeed_answers _ _)
  · exact serves_inject _ _
  · exact serves_writeSpliceRecord _ _
  · exact read (s.applyReadSpliceRecord_answers _)
  · exact serves_startLane _ _ _
  · exact serves_stopLane _ _
  · exact read (s.applyReadLane_answers _)
  · exact serves_setReporting _ _
  · exact serves_latchCounters _
  · exact read (s.applyReadCounters_answers _)
  · exact serves_setGroups _ _
  · exact serves_softReset _
  · exact Serves.refl s

theorem serves_judgeRequest (s : State) (q : Taken) : Serves s (s.judgeRequest q).1 := by
  unfold State.judgeRequest
  split
  · exact serves_applyRequest s q
  · exact Serves.refl s

/-- Whatever stands in the management state, a write of it keeps what REX does not hold (chapter 8). -/
theorem upholds_mgmt (s : State) (m : Mgmt) : Upholds s { s with mgmt := m } :=
  ⟨rfl, id, keeps_elsewhere rfl rfl rfl, id, id, id, id, id⟩

/-- A response is placed where the response queue has room (R160). -/
theorem serves_placeResponse {s : State} (r : Response) (room : s.responseRoom = true) : Serves s (s.placeResponse r) :=
  serves_mlt s _ id fun _ => by
    have : s.mlt.responses.length < 16 := of_decide_eq_true room
    simp only [List.length_append, List.length_singleton]
    omega

theorem upholds_respond (s : State) (r : Response) : Upholds s (s.respond r) ∧ (s.respond r).mgmt.intake = s.mgmt.intake := by
  unfold State.respond
  split
  · next room => exact ⟨(serves_placeResponse r room).toUpholds, rfl⟩
  · exact ⟨upholds_mgmt s _, rfl⟩

/-- Serving a request keeps the intake queue: REX took the request from it before (R149). -/
theorem upholds_serve (s : State) (q : Taken) : Upholds s (s.serve q) ∧ (s.serve q).mgmt.intake = s.mgmt.intake := by
  have judged := serves_judgeRequest s q
  unfold State.serve
  split
  · next t res contents h =>
    rw [h] at judged
    obtain ⟨up, intake⟩ := upholds_respond t { tag := q.tag, kind := q.kind, result := res, contents := contents }
    exact ⟨judged.toUpholds.trans up, intake.trans judged.intake⟩
  · next t h =>
    rw [h] at judged
    exact ⟨judged.toUpholds, judged.intake⟩

theorem upholds_rexRun (n : Nat) (s : State) : Upholds s (State.rexRun n s) := by
  induction n generalizing s with
  | zero => exact Upholds.refl s
  | succ n ih =>
    unfold State.rexRun
    split
    · exact ((upholds_mgmt s _).trans (upholds_serve _ _).1).trans (ih _)
    · exact Upholds.refl s

/-- REX takes requests until none waits or it holds a response, and lengthens no queue (R149, R150). -/
theorem State.rexRun_intake (n : Nat) (s : State) (h : s.mgmt.intake.length ≤ n) :
    (State.rexRun n s).mgmt.intake.length ≤ s.mgmt.intake.length ∧
      ((State.rexRun n s).mgmt.intake ≠ [] → (State.rexRun n s).mgmt.heldResponse.isSome) := by
  induction n generalizing s with
  | zero => exact ⟨Nat.le_refl _, fun hne => absurd (List.eq_nil_of_length_eq_zero (Nat.le_zero.1 h)) hne⟩
  | succ n ih =>
    unfold State.rexRun
    split
    · next q t _ hi =>
      have kept := (upholds_serve { s with mgmt := { s.mgmt with intake := t } } q).2
      rw [hi, List.length_cons] at h ⊢
      obtain ⟨len, idle⟩ := ih ({ s with mgmt := { s.mgmt with intake := t } }.serve q) (by
        rw [kept]; exact Nat.le_of_succ_le_succ h)
      exact ⟨by rw [kept] at len; exact Nat.le_succ_of_le len, idle⟩
    · next hcase =>
      refine ⟨Nat.le_refl _, fun hne => ?_⟩
      cases hr : s.mgmt.heldResponse with
      | some r => rfl
      | none =>
        cases hi : s.mgmt.intake with
        | nil => exact absurd hi hne
        | cons q t => exact absurd hi (hcase q t hr)

/-- What a command keeps: all of it, with the queues of the control path. -/
def KeepsAll (s t : State) : Prop := Upholds s t ∧ (s.queuesInRange → t.queuesInRange)

theorem Serves.keepsAll {s t : State} (h : Serves s t) : KeepsAll s t :=
  ⟨h.toUpholds, fun ⟨len, room, idle⟩ => ⟨by rw [h.intake]; exact len, h.responses room, by rw [h.intake, h.held]; exact idle⟩⟩

theorem KeepsAll.trans {s t u : State} (h : KeepsAll s t) (h' : KeepsAll t u) : KeepsAll s u :=
  ⟨h.1.trans h'.1, fun x => h'.2 (h.2 x)⟩

/-- REX, set going in a state whose queue is not too long, leaves the queues in range (R148 to R150). -/
theorem keepsAll_rexGo {s t : State} (h : Upholds s t) (len : s.queuesInRange → t.mgmt.intake.length ≤ 8) :
    KeepsAll s t.rexGo := by
  have up := h.trans (upholds_rexRun t.mgmt.intake.length t)
  refine ⟨up, fun hs => ?_⟩
  obtain ⟨shorter, idle⟩ := State.rexRun_intake _ t (Nat.le_refl _)
  exact ⟨Nat.le_trans shorter (len hs), up.responses hs.2.1, idle⟩

theorem keepsAll_takeIn (s : State) (q : Taken) : KeepsAll s (s.takeIn q) := by
  unfold State.takeIn
  split
  · next room =>
    refine keepsAll_rexGo (upholds_mgmt s _) fun _ => ?_
    simp only [List.length_append, List.length_singleton]
    exact room
  · unfold State.overrun
    split
    · next room => exact (serves_placeResponse _ room).keepsAll
    · exact (Serves.refl s).keepsAll

theorem keepsAll_send (s : State) (q : Taken) : KeepsAll s (s.send q) := by
  unfold State.send
  split
  · exact keepsAll_takeIn s q
  · exact (Serves.refl s).keepsAll

theorem keepsAll_placeHeld (s : State) : KeepsAll s s.placeHeld := by
  unfold State.placeHeld
  split
  · next r _ =>
    split
    · next room =>
      have placed : Upholds s ({ s with mgmt := { s.mgmt with heldResponse := none } }.placeResponse r) :=
        (upholds_mgmt s { s.mgmt with heldResponse := none }).trans (serves_placeResponse r (by exact room)).toUpholds
      exact keepsAll_rexGo placed fun hs => hs.1
    · exact (Serves.refl s).keepsAll
  · exact (Serves.refl s).keepsAll

theorem serves_placeHeldCommit (s : State) : Serves s s.placeHeldCommit := by
  unfold State.placeHeldCommit
  split
  · next r t _ =>
    split
    · next room =>
      have taken : Serves s { s with heldCommits := t } := serves_clock s s.tbu s.mlt t s.due id id id rfl
      exact taken.trans (serves_placeResponse r (by exact room))
    · exact Serves.refl s
  · exact Serves.refl s

/-! ### Commands -/

theorem keepsAll_handOver (s : State) (p : PortId) (h : Header) (payload : List Byte) : KeepsAll s (s.handOver p h payload) := by
  unfold State.handOver State.controlCell
  split
  · split
    · exact keepsAll_takeIn _ _
    · exact (Serves.refl s).keepsAll
  · exact (Serves.refl s).keepsAll

/-- A unit in LIVE or ABSENT, whatever its header (R23, R24). -/
theorem keepsAll_unit (s : State) (p : PortId) (unit : List Byte) :
    KeepsAll s (if headerGood unit then s.goodUnit p unit else s.badUnit p unit) := by
  split
  · exact (serves_counted s p unit).keepsAll.trans (keepsAll_handOver _ _ _ _)
  · exact (serves_badUnit s p unit).keepsAll

theorem keepsAll_arrive (s : State) (p : PortId) (unit : List Byte) : KeepsAll s (s.arrive p unit) := by
  have moved : ∀ d : Option (BitVec 48), KeepsAll s (s.setPort p { s.port p with lossDeadline := d }) := fun d =>
    (serves_setPort_kept s p _).keepsAll
  have aligned : ∀ u, KeepsAll s (if headerGood u
      then (s.setPort p { s.port p with lossDeadline := some (s.deadline (s.port p).settings.lossTimeout) }).goodUnit p u
      else (s.setPort p { s.port p with lossDeadline := some (s.deadline (s.port p).settings.lossTimeout) }).badUnit p u) :=
    fun u => (moved _).trans (keepsAll_unit _ p u)
  unfold State.arrive
  simp only
  split
  · exact (Serves.refl s).keepsAll
  · refine (serves_changePort s p _ fun hp on => Port.hunt_on ⟨?_, ?_⟩ _).keepsAll
    · simp
    · subst hp; exact on.2
  · refine (serves_changePort s p _ fun hp on => Port.hunt_on ⟨?_, ?_⟩ _).keepsAll
    · subst hp; exact on.1
    · subst hp; exact on.2
  · exact aligned _
  · exact aligned _

/-- A part of a boundary taken where its case stands. -/
theorem serves_ite {s t : State} (c : Prop) [Decidable c] (h : Serves s t) : Serves s (if c then t else s) := by
  split
  · exact h
  · exact Serves.refl s

/-- Power-up sets every block to values that are sound and in range, whatever stood before (R17, R35, R58, R144, R170). -/
theorem keepsAll_powerUp (s : State) (straps : BitVec 12) : KeepsAll s { State.powerUp straps with pending := s.pending } := by
  refine ⟨⟨rfl, fun _ => State.powerUp_wf straps,
      ⟨fun _ => Store.powerUp_sound, fun _ => State.powerUp_recordsSettled straps, fun _ _ => rfl⟩,
      fun _ => Counters.powerUp_inRange, fun _ => ?_, fun _ => ?_, fun _ => ?_, fun _ => ?_⟩, fun _ => ?_⟩
  · exact ⟨by simp [State.powerUp, Mlt.powerUp], by simp [State.powerUp, Mlt.powerUp]⟩
  · simp [State.powerUp, Mlt.powerUp]
  · simp [State.powerUp, Tbu.inRange, Tbu.powerUp]
  · have port : ({ State.powerUp straps with pending := s.pending } : State).port 0 = Port.national := rfl
    rw [port]
    exact ⟨by decide, rfl⟩
  · simp [State.queuesInRange, State.powerUp, Mgmt.powerUp, Mlt.powerUp]

/-- The boundaries and their parts keep all of it. -/
theorem serves_dueCommit (s : State) (f : FeedId) (c : Commit → Prop) [DecidablePred c] :
    Serves s (match s.dueCommit f with
      | some x => if c x then s.considerCommit x else s
      | none => s) := by
  split
  · exact serves_ite _ (serves_considerCommit s _)
  · exact Serves.refl s

/-- Every command answers a next state and keeps all of it. -/
theorem exec_keepsAll (c : Instr) (s : State) : ∃ t, exec c s = .next t ∧ KeepsAll s t := by
  cases hq : takenBy c with
  | some q => exact ⟨_, exec_takenBy hq s, keepsAll_send s q⟩
  | none =>
    cases c
    case powerUp straps => exact ⟨_, rfl, keepsAll_powerUp s straps⟩
    case slotBoundary order pace => exact ⟨_, rfl, (serves_slotBoundary s order pace).keepsAll⟩
    case pendingSlotPeriodTaken =>
      refine ⟨_, rfl, (serves_ite _ ?_).keepsAll⟩
      split
      · exact serves_openSlot s
      · exact serves_meetEpoch s
    case cycleBoundary order pace => exact ⟨_, rfl, (serves_cycleBoundary s order pace).keepsAll⟩
    case pendingCycleLengthTaken =>
      refine ⟨_, rfl, (serves_ite _ ?_).keepsAll⟩
      split
      · exact serves_openSlot s
      · exact serves_meetEpoch s
    case secondBoundary pace => exact ⟨_, rfl, (serves_secondBoundary s pace).keepsAll⟩
    case epoch order pace =>
      exact ⟨_, rfl, (((serves_meetEpoch s).trans (serves_cycleParts _ order)).trans (serves_closeCycle _ pace)).keepsAll⟩
    case secondMark pace => exact ⟨_, rfl, (serves_secondMark s pace).keepsAll⟩
    case markWindowExpiry => exact ⟨_, rfl, (serves_ite _ (serves_enterHoldover s)).keepsAll⟩
    case cellArrival p unit =>
      refine ⟨_, rfl, ?_⟩
      split
      · exact keepsAll_arrive s p unit
      · exact (Serves.refl s).keepsAll
    case lossDeadlineExpiry p => exact ⟨_, rfl, (serves_ite _ (serves_lose s p)).keepsAll⟩
    case heldResponsePlaced => exact ⟨_, rfl, keepsAll_placeHeld s⟩
    case commitResponsePlaced => exact ⟨_, rfl, (serves_placeHeldCommit s).keepsAll⟩
    case outPoint f e => exact ⟨_, rfl, (serves_ite _ (serves_slotPartFeed s f)).keepsAll⟩
    case inPoint f e => exact ⟨_, rfl, (serves_ite _ (serves_slotPartFeed s f)).keepsAll⟩
    case notice l => exact ⟨_, rfl, (serves_ite _ (serves_lanePart s l)).keepsAll⟩
    case arming l => exact ⟨_, rfl, (serves_ite _ (serves_lanePart s l)).keepsAll⟩
    case windowExpiry f e => exact ⟨_, rfl, ((acts_windowPart s f e).serves (keeps_windowPart s f e)).keepsAll⟩
    case revertStart f e =>
      exact ⟨_, rfl, (serves_ite _ ((acts_revertPart s f e).serves (keeps_revertPart s f e))).keepsAll⟩
    case commitSwap f => exact ⟨_, rfl, (serves_dueCommit s f _).keepsAll⟩
    case commitTimeout f => exact ⟨_, rfl, (serves_dueCommit s f _).keepsAll⟩
    case feedBecomesRunning f => exact ⟨_, rfl, (serves_ite _ (serves_changeAtCycle s f)).keepsAll⟩
    case feedEntersTest f => exact ⟨_, rfl, (serves_ite _ (serves_slotPartFeed s f)).keepsAll⟩
    case feedLeavesTest f => exact ⟨_, rfl, (serves_ite _ (serves_changeAtCycle s f)).keepsAll⟩
    case autoCounterTransfer => exact ⟨_, rfl, (serves_ite _ (serves_secondBoundary s _)).keepsAll⟩
    case stationTick =>
      exact ⟨_, rfl, (serves_clock s { s.tbu with tickCount := s.tbu.tickCount + 1 } s.mlt s.heldCommits
        { s.due with epochPassed := false } id id id rfl).keepsAll⟩
    case malformedRequest record =>
      have formed : (takenOf record).request.wellFormed = true := by simpa [takenBy] using hq
      exact ⟨s, by simp [exec, execMalformedRequest, formed], (Serves.refl s).keepsAll⟩
    all_goals cases hq

/-- What every step keeps, read off what every command keeps: the queue's front is taken, and nothing else is changed by it. -/
theorem step_keepsAll {s t : State} (h : step s = .next t) :
    ∃ l, KeepsAll { s with pending := l } t := by
  unfold step at h
  split at h
  · cases h
    exact ⟨s.pending, (Serves.refl s).keepsAll⟩
  · next c rest _ =>
    obtain ⟨u, hu, kept⟩ := exec_keepsAll c { s with pending := rest }
    rw [hu] at h
    cases h
    exact ⟨rest, kept⟩

/-- Settles O56: the canonical form by what every operation can do, the streams and the pool by what every store operation keeps. -/
theorem stepsKeepStoresSound : Obligations.StepsKeepStoresSound := by
  unfold Obligations.StepsKeepStoresSound
  intro s t ⟨wf, streams, pool⟩ h
  obtain ⟨l, up, -⟩ := step_keepsAll h
  have sound := up.keeps.store ⟨((State.wf_iff s).1 wf).1, streams, pool⟩
  exact ⟨up.wf wf, sound.streams, sound.pool⟩

/-- Settles O57, by what every command keeps. -/
theorem stepsKeepItemsInRange : Obligations.StepsKeepItemsInRange := by
  unfold Obligations.StepsKeepItemsInRange
  intro s t ⟨tbu, counters, reports, queues⟩ h
  obtain ⟨l, up, kept⟩ := step_keepsAll h
  exact ⟨up.tbu tbu, up.counters counters, up.reports reports, kept queues⟩

/-- Settles O58, by what every command keeps. -/
theorem stepsKeepNationalPortEnabled : Obligations.StepsKeepNationalPortEnabled := by
  unfold Obligations.StepsKeepNationalPortEnabled
  intro s t on h
  obtain ⟨l, up, -⟩ := step_keepsAll h
  exact up.national on

/-- Settles O59: every write of a record keeps the records settled, and every event ends with the walks of its lanes. -/
theorem stepsCompleteRecordsAtLastOutcome : Obligations.StepsCompleteRecordsAtLastOutcome := by
  unfold Obligations.StepsCompleteRecordsAtLastOutcome
  intro s t ⟨wf, records, walks⟩ h
  obtain ⟨l, up, -⟩ := step_keepsAll h
  have sorted := Table.sorted_of_wf ((State.wf_iff s).1 wf).2.2
  exact ⟨(up.keeps.records ⟨sorted, records⟩).2, up.keeps.walks trivial walks⟩

/-- Settles O2, by what every command keeps. -/
theorem everyCommandAnswersNextState : Obligations.EveryCommandAnswersNextState := by
  unfold Obligations.EveryCommandAnswersNextState
  intro c s
  obtain ⟨t, ht, up, -⟩ := exec_keepsAll c s
  exact ⟨t, ht, up.pending⟩

/-- Settles O1, by the definition of a step. -/
theorem stepRunsFrontCommand : Obligations.StepRunsFrontCommand := by
  unfold Obligations.StepRunsFrontCommand
  exact ⟨fun _ _ _ => rfl, fun s h => by simp [step, h]⟩

/-- Settles O60: power-up keeps every invariant, wherever it is met. -/
theorem invariantsHoldAtReset : Obligations.InvariantsHoldAtReset := by
  unfold Obligations.InvariantsHoldAtReset
  refine ⟨State.powerUp_wf 0, Store.powerUp_sound.streams, Store.powerUp_sound.pool, ?_, Counters.powerUp_inRange, ?_, ?_,
    by decide, by decide, (State.powerUp_recordsSettled 0).2, rfl⟩
  · simp [State.reset, State.powerUp, Tbu.inRange, Tbu.powerUp]
  · exact ⟨by simp [State.reset, State.powerUp, Mlt.powerUp], by simp [State.reset, State.powerUp, Mlt.powerUp]⟩
  · simp [State.queuesInRange, State.reset, State.powerUp, Mgmt.powerUp, Mlt.powerUp]

end Sys2Proof.Machine
end

section
/-! PROOFS. Power-up, ticks, seconds and slots (chapter 1): the statements on what each does to the part. -/

namespace Sys2Proof.Machine

/-! ### Power-up -/

theorem State.powerUp_port (straps : BitVec 12) (p : PortId) :
    (State.powerUp straps).port p = if p = 0 then Port.national else Port.regional := by
  fin_cases p <;> rfl

/-- Settles O4: power-up's values are read off, block by block. -/
theorem blocksAtPowerUp : Obligations.BlocksAtPowerUp := by
  unfold Obligations.BlocksAtPowerUp
  intro straps s
  have map : ∀ f, ({ State.powerUp straps with pending := s.pending } : State).map f = FeedMap.powerUp := fun f => by
    simp [State.powerUp, State.map, Vector.get_eq_getElem]
  refine ⟨_, rfl, rfl, fun p => ?_, fun c => ?_, fun slot => rfl, Store.powerUp_stack, fun p => ?_,
    fun k => ⟨rfl, rfl, rfl, rfl, rfl, rfl⟩, fun f => ?_, rfl, rfl, fun f => ?_, fun r => rfl, fun l => ?_, rfl, rfl⟩
  · refine (State.powerUp_port straps p).trans ?_
    by_cases hp : p = 0 <;> simp [hp, Port.national, Port.regional, Settings.regional]
  · simp [State.powerUp, Counters.powerUp, Vector.get_eq_getElem]
  · simp [State.powerUp, Store.powerUp, Vector.get_eq_getElem]
  · refine ⟨by rw [map]; rfl, by rw [map]; rfl, fun e => ⟨fun bank => ?_, ?_⟩⟩
    · rw [map]
      cases bank <;> rfl
    · simp only [State.live, map]
      rfl
  · simp [State.powerUp, State.feed, Feed.powerUp, Vector.get_eq_getElem]
  · simp [State.powerUp, State.lane, Ssu.powerUp, Lane.powerUp, Vector.get_eq_getElem]

/-! ### Ticks and seconds (R1, R2) -/

/-- At NextSecond, with no epoch pending, a second boundary of any pace is counted and makes the transfer it calls for (R2, R166). -/
theorem State.secondBoundary_of_no_epoch {s : State} (hs : s.tbu.tickCount = s.tbu.nextSecond) (hv : s.tbu.pendEpoch = none)
    (pace : SecondPace) :
    ∃ n, s.tbu.nextSecond + 16384000 = n ∧ s.secondBoundary pace = (s.awaitSecond n).countSecond.transferPart := by
  obtain ⟨n, hn, opened⟩ := State.secondBoundary_of_reached (s.secondReached_iff.mpr hs) pace
  exact ⟨n, hn, opened.trans (State.openSecond_of_no_epoch (s := s.awaitSecond n) hv pace)⟩

/-- A transfer changes counters and the MLT only (R165, R166). -/
theorem State.transferPart_ports (s : State) : s.transferPart.ports = s.ports := by
  unfold State.transferPart State.autoTransfer
  split
  · exact (moves_handReport _ _).ports
  · rfl

/-- Settles O5: a tick writes TickCount; a second boundary is counted, and only a transfer could change more. -/
theorem ticksAndSecondsCount : Obligations.TicksAndSecondsCount := by
  unfold Obligations.TicksAndSecondsCount
  refine ⟨fun s => ⟨_, rfl, rfl, rfl, BitVec.toNat_add _ _⟩, fun s hs hv h1 h0 pace => ?_, fun s hs hv pace => ?_, fun s pace hs => ?_⟩
  · obtain ⟨n, hn, taken⟩ := State.secondBoundary_of_no_epoch hs hv pace
    have quiet : (s.awaitSecond n).countSecond.mlt.secsLeft ≠ some 0 := by
      rw [State.countSecond_mlt, Ne, Mlt.countSecond_ends]
      exact not_or.mpr ⟨h1, h0⟩
    rw [State.transferPart_quiet quiet] at taken
    rw [hn]
    exact congrArg _ taken
  · obtain ⟨n, hn, taken⟩ := State.secondBoundary_of_no_epoch hs hv pace
    rw [hn]
    refine ⟨_, rfl, ?_, ?_⟩
    · rw [taken, State.transferPart_ports]; rfl
    · rw [taken, State.transferPart_tbu]; rfl
  · have : s.secondReached = false := by simpa [State.secondReached] using hs
    exact congrArg _ (State.secondBoundary_of_not_reached this pace)

/-! ### Slots and cycles (R8, R9) -/

/-- No party of a slot boundary changes a port or the control path (chapters 2 and 8). -/
theorem State.slotPart_outside (s : State) (p : SlotPart) : (s.slotPart p).ports = s.ports ∧ (s.slotPart p).mgmt = s.mgmt := by
  cases p with
  | feed f => exact ⟨(acts_slotPartFeed s f).ports, (acts_slotPartFeed s f).mgmt⟩
  | monitor =>
    simp only [State.slotPart, State.slotPartMonitor, State.monitorSend]
    split
    · split
      · exact ⟨rfl, rfl⟩
      · split <;> exact ⟨rfl, rfl⟩
    · exact ⟨rfl, rfl⟩

theorem State.slotParts_outside (s : State) (l : List SlotPart) :
    (s.slotParts l).ports = s.ports ∧ (s.slotParts l).mgmt = s.mgmt := by
  induction l generalizing s with
  | nil => exact ⟨rfl, rfl⟩
  | cons p l ih =>
    obtain ⟨hp, hm⟩ := ih (s.slotPart p)
    exact ⟨hp.trans (s.slotPart_outside p).1, hm.trans (s.slotPart_outside p).2⟩

theorem State.openSlot_outside (s : State) : s.openSlot.ports = s.ports ∧ s.openSlot.mgmt = s.mgmt ∧ s.openSlot.feeds = s.feeds := by
  unfold State.openSlot
  simp only
  split <;> exact ⟨rfl, rfl, rfl⟩

theorem State.slotBoundary_outside (s : State) (order : List SlotPart) (pace : Pace) :
    (s.slotBoundary order pace).ports = s.ports ∧ (s.slotBoundary order pace).mgmt = s.mgmt := by
  have met : s.meetSlot.ports = s.ports ∧ s.meetSlot.mgmt = s.mgmt := by
    unfold State.meetSlot
    split
    · exact ⟨s.openSlot_outside.1, s.openSlot_outside.2.1⟩
    · exact ⟨rfl, rfl⟩
  obtain ⟨hp, hm⟩ := s.meetSlot.slotParts_outside order
  unfold State.slotBoundary
  cases pace with
  | whole =>
    have closed := acts_closeCycle ((s.meetSlot.slotParts order).slotParts allSlotParts) .whole
    obtain ⟨hp', hm'⟩ := (s.meetSlot.slotParts order).slotParts_outside allSlotParts
    exact ⟨closed.ports.trans (hp'.trans (hp.trans met.1)), closed.mgmt.trans (hm'.trans (hm.trans met.2))⟩
  | listed => exact ⟨hp.trans met.1, hm.trans met.2⟩

/-- The TBU takes a slot boundary exactly at its tick (R8). -/
theorem State.slotBoundary_tbu_of_not_reached {s : State} (h : s.slotReached = false) (order : List SlotPart) (pace : Pace) :
    (s.slotBoundary order pace).tbu = s.tbu := by
  rw [State.slotBoundary, State.closeSlot_tbu, State.slotParts_tbu, State.meetSlot, if_neg (by simp [h])]

/-- When the tick of a slot boundary has come, in the words of section 1.3. -/
theorem State.slotReached_iff_tick (s : State) :
    s.slotReached = true ↔ ((s.tbu.tickCount ++ (0 : BitVec 16)) - s.tbu.slotPos).toNat < 65536 ∧
      ¬ (s.tbu.tickCount = s.tbu.nextSecond ∧ s.tbu.pendEpoch ≠ none) := by
  rw [State.slotReached_iff, State.tickPos]
  simp [State.epochAtTick, State.secondReached]

/-- The TBU at a slot boundary, in the words of sections 1.3 and 1.4. -/
theorem Tbu.next_of_counting {t : Tbu} (h : t.slotIndex + 1 < t.cycleLen) :
    t.nextSlot.nextIndex = { t.nextSlot with slotIndex := t.slotIndex + 1 } := if_pos h

theorem Tbu.next_of_cycle {t : Tbu} (h : ¬ t.slotIndex + 1 < t.cycleLen) :
    t.nextSlot.nextIndex =
      { t.nextSlot with
        slotIndex := 0, cycleNo := t.cycleNo + 1, cycleLen := t.pendCycleLen.getD t.cycleLen, pendCycleLen := none } := if_neg h

/-- Settles O6: the TBU changes as the boundary is opened, and its parties leave the TBU, the ports and the control path alone. -/
theorem slotBoundaryAdvancesSlotClock : Obligations.SlotBoundaryAdvancesSlotClock := by
  unfold Obligations.SlotBoundaryAdvancesSlotClock
  intro order pace s
  obtain ⟨ports, mgmt⟩ := s.slotBoundary_outside order pace
  refine ⟨_, rfl, ports, mgmt, fun reached counting => ?_, fun reached cycle => ?_, fun waits => ?_⟩
  · rw [State.slotBoundary_tbu (s.slotReached_iff_tick.mpr reached), Tbu.next_of_counting counting]
    rfl
  · rw [State.slotBoundary_tbu (s.slotReached_iff_tick.mpr reached), Tbu.next_of_cycle cycle]
    rfl
  · exact State.slotBoundary_tbu_of_not_reached
      (by rw [← Bool.not_eq_true, s.slotReached_iff_tick]; exact waits) order pace

end Sys2Proof.Machine
end

section
/-! PROOFS. Cycle boundaries, epochs, second marks, counter periods and the report queue (chapters 1 and 9). -/

namespace Sys2Proof.Machine

/-! ### What the parties of a cycle boundary leave alone -/

/-- An operation that touches no feed composer, and nothing that a composer or the MLT has still to take. -/
structure Aside (s t : State) : Prop where
  feeds : t.feeds = s.feeds
  slotFeeds : t.due.slotFeeds = s.due.slotFeeds
  cycleFeeds : t.due.cycleFeeds = s.due.cycleFeeds
  monitor : t.due.monitor = s.due.monitor

namespace Aside

theorem refl (s : State) : Aside s s := ⟨rfl, rfl, rfl, rfl⟩

theorem trans {s t u : State} (h : Aside s t) (h' : Aside t u) : Aside s u :=
  ⟨h'.feeds.trans h.feeds, h'.slotFeeds.trans h.slotFeeds, h'.cycleFeeds.trans h.cycleFeeds, h'.monitor.trans h.monitor⟩

theorem foldl {β : Type} (g : State → β → State) (hg : ∀ s b, Aside s (g s b)) (l : List β) (s : State) :
    Aside s (l.foldl g s) := by
  induction l generalizing s with
  | nil => exact refl s
  | cons b l ih => exact (hg s b).trans (ih _)

theorem feed {s t : State} (h : Aside s t) (f : FeedId) : t.feed f = s.feed f := by simp only [State.feed, h.feeds]

end Aside

theorem Moves.aside {s t : State} (h : Moves s t) : Aside s t :=
  ⟨h.feeds, by rw [h.due], by rw [h.due], by rw [h.due]⟩

theorem aside_endCommit (s : State) (c : Commit) (res : Result) (l : List Byte) : Aside s (s.endCommit c res l) := by
  have unlocked : Aside s ({ s with commits := s.commits.filter (fun x => x.feeds &&& c.feeds = 0) }.unlockAll c.feeds) :=
    Aside.trans (t := { s with commits := s.commits.filter (fun x => x.feeds &&& c.feeds = 0) }) ⟨rfl, rfl, rfl, rfl⟩
      (moves_unlockAll _ _).aside
  refine unlocked.trans ?_
  unfold State.endCommit State.handCommitResponse
  split <;> exact ⟨rfl, rfl, rfl, rfl⟩

theorem aside_swap (s : State) (fs : FeedSet) : Aside s (s.swap fs) := by
  have swapped := Aside.foldl State.swapFeed (fun _ _ => ⟨rfl, rfl, rfl, rfl⟩) (feedList fs) s
  have withdrawn : ∀ (new : State) (l : List FeedId) (t : State),
      Aside t (l.foldl (fun t f => (State.swapWithdraws s new f).foldl (fun t src => t.withdraw f src) t) t) := fun new l t =>
    Aside.foldl _ (fun t f => (Moves.foldl _ (fun t src => moves_withdraw t f src) _ t).aside) l t
  have subscribed : ∀ (new : State) (l : List FeedId) (t : State), Aside t (l.foldl (State.swapSubscribes s new) t) :=
    fun new l t => Aside.foldl _ (fun t f => (moves_swapSubscribes s new t f).aside) l t
  exact ((swapped.trans (withdrawn _ _ _)).trans (subscribed _ _ _)).trans
    (Aside.foldl _ (fun t f => (moves_refresh t f).aside) _ _)

theorem aside_considerCommit (s : State) (c : Commit) : Aside s (s.considerCommit c) := by
  have considered : Aside s
      { s with commits := s.commits.map (fun (x : Commit) => if x.feeds = c.feeds then { x with due := false } else x) } :=
    ⟨rfl, rfl, rfl, rfl⟩
  unfold State.considerCommit
  simp only
  split
  · refine considered.trans ?_
    unfold State.trySwap
    split
    · exact aside_endCommit _ _ _ _
    · exact (aside_swap _ _).trans (aside_endCommit _ _ _ _)
  · split
    · exact considered.trans (aside_endCommit _ _ _ _)
    · exact considered

/-- Every party of a cycle boundary but a feed's own change of state stands aside. -/
theorem aside_cyclePart (s : State) {p : CyclePart} (hp : ∀ f, p ≠ .feed f) : Aside s (s.cyclePart p) := by
  cases p with
  | feed f => exact absurd rfl (hp f)
  | window f e =>
    simp only [State.cyclePart, State.windowPart]
    split
    · exact ((moves_expireWindow _ _ _).trans (moves_walkLanes _)).aside
    · exact Aside.refl s
  | revert f e =>
    simp only [State.cyclePart, State.revertPart]
    split
    · exact Aside.trans (t := { s with due := { s.due with
        reverts := upd s.due.reverts f (s.due.reverts.get f &&& ~~~ BitVec.twoPow 64 e) } }) ⟨rfl, rfl, rfl, rfl⟩
        (moves_countRevert _ _ _).aside
    · exact Aside.refl s
  | lane l =>
    simp only [State.cyclePart, State.lanePart]
    split
    · exact Aside.trans (t := { s with due := { s.due with lanes := s.due.lanes &&& ~~~ BitVec.twoPow 4 l.val } })
        ⟨rfl, rfl, rfl, rfl⟩ (moves_evaluateLane _ _).aside
    · exact Aside.refl s
  | commit f =>
    simp only [State.cyclePart, State.commitPart]
    split
    · split
      · exact aside_considerCommit _ _
      · exact Aside.refl s
    · exact Aside.refl s

/-- A feed's change of state at a cycle boundary: the cell it sent stays, and so does every other feed and what is due at the slot
boundary; the change it made is due no more (R82, R85). -/
theorem State.changeAtCycle_frame (s : State) (f : FeedId) :
    (∀ g, g ≠ f → (s.changeAtCycle f).feed g = s.feed g) ∧ ((s.changeAtCycle f).feed f).sent = (s.feed f).sent ∧
      (s.changeAtCycle f).due.slotFeeds = s.due.slotFeeds ∧ (s.changeAtCycle f).due.monitor = s.due.monitor ∧
      ((s.changeAtCycle f = s ∧ (hasFeed s.due.cycleFeeds f = false ∨ s.testComes f = true)) ∨
        (s.changeAtCycle f).due.cycleFeeds = dropFeed s.due.cycleFeeds f) := by
  unfold State.changeAtCycle
  split
  · simp only
    split
    · exact ⟨fun g hg => State.setFeed_feed_other _ _ (Ne.symm hg),
        by rw [State.becomeRunning, State.setFeed_feed]; rfl, rfl, rfl, .inr rfl⟩
    · split
      · have subscribed := (moves_subscribeEntries
          (({ s with due := { s.due with cycleFeeds := dropFeed s.due.cycleFeeds f } } : State).setFeed f
            { s.feed f with state := .running, pendMode := .none, injectPending := false }) f).aside
        exact ⟨fun g hg => (subscribed.feed g).trans (State.setFeed_feed_other _ _ (Ne.symm hg)),
          (congrArg Feed.sent (subscribed.feed f)).trans (by rw [State.setFeed_feed]), subscribed.slotFeeds, subscribed.monitor,
          .inr subscribed.cycleFeeds⟩
      · exact ⟨fun _ _ => rfl, rfl, rfl, rfl, .inr rfl⟩
    · exact ⟨fun _ _ => rfl, rfl, rfl, rfl, .inr rfl⟩
  · next h =>
    refine ⟨fun _ _ => rfl, rfl, rfl, rfl, .inl ⟨rfl, ?_⟩⟩
    cases hc : hasFeed s.due.cycleFeeds f with
    | false => exact .inl rfl
    | true => exact .inr (by simpa [hc] using h)

/-- The parties of a cycle boundary send no cell (R86). -/
theorem State.cycleParts_sent (s : State) (l : List CyclePart) (f : FeedId) :
    ((s.cycleParts l).feed f).sent = (s.feed f).sent := by
  induction l generalizing s with
  | nil => rfl
  | cons p l ih =>
    refine (ih (s.cyclePart p)).trans ?_
    by_cases hp : ∃ g, p = .feed g
    · obtain ⟨g, rfl⟩ := hp
      obtain ⟨others, own, -⟩ := s.changeAtCycle_frame g
      by_cases hf : f = g
      · subst hf; exact own
      · exact congrArg Feed.sent (others f hf)
    · exact congrArg Feed.sent ((aside_cyclePart s fun g hg => hp ⟨g, hg⟩).feed f)

theorem State.closeCycle_sent (s : State) (pace : Pace) (f : FeedId) : ((s.closeCycle pace).feed f).sent = (s.feed f).sent := by
  cases pace with
  | whole => exact s.cycleParts_sent _ f
  | listed => rfl

theorem Acts.sent {s t : State} (h : Acts s t) : t.mlt.sent = s.mlt.sent := by rw [h.eq]

theorem Moves.sent {s t : State} (h : Moves s t) : t.mlt.sent = s.mlt.sent := h.acts.sent

/-- A cycle boundary that has been opened has sent no cell and changed no port (R9, R15). -/
structure State.Silent (s t : State) : Prop where
  feeds : ∀ f, (t.feed f).sent = (s.feed f).sent
  monitor : t.mlt.sent = s.mlt.sent
  ports : t.ports = s.ports

theorem State.Silent.trans {s t u : State} (h : State.Silent s t) (h' : State.Silent t u) : State.Silent s u :=
  ⟨fun f => (h'.feeds f).trans (h.feeds f), h'.monitor.trans h.monitor, h'.ports.trans h.ports⟩

theorem Moves.silent {s t : State} (h : Moves s t) : State.Silent s t :=
  ⟨fun f => congrArg Feed.sent (h.feed f), h.sent, h.ports⟩

theorem State.silent_cycleParts (s : State) (l : List CyclePart) : State.Silent s (s.cycleParts l) :=
  ⟨s.cycleParts_sent l, (acts_cycleParts s l).sent, (acts_cycleParts s l).ports⟩

theorem State.silent_closeCycle (s : State) (pace : Pace) : State.Silent s (s.closeCycle pace) :=
  ⟨s.closeCycle_sent pace, (acts_closeCycle s pace).sent, (acts_closeCycle s pace).ports⟩

theorem State.silent_transferPart (s : State) : State.Silent s s.transferPart := by
  unfold State.transferPart
  split
  · exact State.Silent.trans (t := { s.transfer with mlt := { s.transfer.mlt with secsLeft := some s.transfer.mlt.period } })
      ⟨fun _ => rfl, rfl, rfl⟩ (moves_handReport _ _).silent
  · exact ⟨fun _ => rfl, rfl, rfl⟩

theorem State.silent_openEpoch (s : State) : State.Silent s s.openEpoch := by
  unfold State.openEpoch
  split <;> exact ⟨fun _ => rfl, rfl, rfl⟩

theorem State.silent_openSecond (s : State) (pace : SecondPace) : State.Silent s (s.openSecond pace) := by
  have counted : State.Silent s s.countSecond := ⟨fun _ => rfl, rfl, rfl⟩
  cases pace with
  | whole =>
    simp only [State.openSecond]
    split
    · exact ((counted.trans (State.silent_openEpoch _)).trans (State.silent_closeCycle _ _)).trans (State.silent_transferPart _)
    · exact counted.trans (State.silent_transferPart _)
  | transferFirst => exact (counted.trans (State.silent_transferPart _)).trans (State.silent_openEpoch _)
  | epochFirst => exact (counted.trans (State.silent_openEpoch _)).trans (State.silent_transferPart _)

/-! ### Cycle boundaries reached by counting (R9, R12) -/

/-- What a content becomes is what the table reads, where the default stays itself. -/
theorem Table.get_map {α : Type} (d : α) (g : α → α) (hd : g d = d) (t : List (Nat × α)) (i : Nat) :
    Table.get d (t.map (fun kv => (kv.1, g kv.2))) i = g (Table.get d t i) := by
  induction t with
  | nil => exact hd.symm
  | cons kv t ih =>
    obtain ⟨k, v⟩ := kv
    by_cases hk : k = i
    · simp [Table.get, Table.find, hk]
    · simpa [Table.get, Table.find, hk] using ih

theorem State.openCycle_map (s : State) (f : FeedId) : s.openCycle.map f = (s.map f).lowered := by
  simp [State.openCycle, State.map, Vector.get_eq_getElem]

/-- The window of a splice or revert falls by one as a cycle boundary is opened (R123). -/
theorem State.openCycle_live (s : State) (f : FeedId) (e : Nat) : s.openCycle.live f e = (s.live f e).lowered := by
  simp only [State.live, State.openCycle_map, FeedMap.lowered]
  exact Table.get_map _ _ rfl _ _

/-- A slot boundary that is a cycle boundary too is opened as both (R9). -/
theorem State.openSlot_of_cycle {s : State} (h : ¬ s.tbu.slotIndex + 1 < s.tbu.cycleLen) :
    s.openSlot = State.openCycle
      { s with
        tbu := s.tbu.nextSlot.nextIndex
        due := { s.due with slotFeeds := BitVec.allOnes 8, monitor := true, epochPassed := s.tbu.pendEpoch.isSome } } := by
  simp [State.openSlot, h]

theorem State.cycleReached_of {s : State} (h : s.slotReached = true) (hc : ¬ s.tbu.slotIndex + 1 < s.tbu.cycleLen) :
    s.cycleReached = true := by simp [State.cycleReached, h, hc]

theorem Live.lowered_eq (v : Live) :
    v.lowered = if v.estate = .outWait ∨ v.estate = .inWait then { v with windowLeft := v.windowLeft - 1 } else v := by
  simp only [Live.lowered, Live.busy, Bool.or_eq_true, decide_eq_true_eq]

/-- The cycle boundary opened by counting, in the words of sections 1.4 and 6.6. -/
theorem State.cycleBoundary_opened {s : State} (reached : s.slotReached = true)
    (cycle : ¬ s.tbu.slotIndex + 1 < s.tbu.cycleLen) :
    s.cycleBoundary [] .listed = s.openSlot ∧
      s.openSlot = { s with
        tbu := s.openSlot.tbu, maps := s.openSlot.maps, commits := s.openSlot.commits, due := s.openSlot.due } ∧
      (∀ f, s.openSlot.map f = { s.map f with live := (s.openSlot.map f).live }) ∧
      (∀ f e, s.openSlot.live f e = (s.live f e).lowered) ∧
      s.openSlot.commits = s.commits.map (fun c => { c with considered := c.considered + 1, due := true }) := by
  refine ⟨?_, ?_⟩
  · simp [State.cycleBoundary, State.cycleReached_of reached cycle, State.cycleParts, State.closeCycle]
  · rw [State.openSlot_of_cycle cycle]
    exact ⟨rfl, fun f => by rw [State.openCycle_map]; rfl, fun f e => State.openCycle_live _ f e, rfl⟩

theorem State.cycleBoundary_parts {s : State} (reached : s.slotReached = true) (cycle : ¬ s.tbu.slotIndex + 1 < s.tbu.cycleLen)
    (order : List CyclePart) (pace : Pace) : Acts s.openSlot (s.cycleBoundary order pace) := by
  rw [State.cycleBoundary, State.cycleReached_of reached cycle, if_pos rfl]
  exact (acts_cycleParts _ _).trans (acts_closeCycle _ _)

/-- Where an epoch is taken at the tick, no slot boundary and no cycle boundary by counting falls (R15). -/
theorem State.slotReached_of_epoch {s : State} {v : BitVec 16} (hs : s.tbu.tickCount = s.tbu.nextSecond)
    (hv : s.tbu.pendEpoch = some v) : s.slotReached = false := by
  simp [State.slotReached, State.epochAtTick_of_epoch (s.secondReached_iff.mpr hs) hv]

/-- The second boundary with its epoch leaves ports and composers alone (R15). -/
theorem State.openSecond_epochFirst_outside (s : State) :
    (s.openSecond .epochFirst).ports = s.ports ∧ (s.openSecond .epochFirst).feeds = s.feeds := by
  have opened : s.countSecond.openEpoch.ports = s.ports ∧ s.countSecond.openEpoch.feeds = s.feeds := by
    unfold State.openEpoch
    split <;> exact ⟨rfl, rfl⟩
  unfold State.openSecond State.transferPart State.autoTransfer
  simp only
  split
  · exact ⟨(moves_handReport _ _).ports.trans opened.1, (moves_handReport _ _).feeds.trans opened.2⟩
  · exact opened

/-- What a second boundary with an epoch pending does to the TBU, and what it leaves alone (R15). -/
theorem State.secondBoundary_epoch {s : State} {v : BitVec 16} (hs : s.tbu.tickCount = s.tbu.nextSecond)
    (hv : s.tbu.pendEpoch = some v) (pace : SecondPace) :
    ∃ n, s.tbu.nextSecond + 16384000 = n ∧ (s.secondBoundary pace).tbu = (s.awaitSecond n).tbu.secondTaken.epochTaken v ∧
      State.Silent s (s.secondBoundary pace) := by
  obtain ⟨n, hn, opened⟩ := State.secondBoundary_of_reached (s.secondReached_iff.mpr hs) pace
  refine ⟨n, hn, by rw [opened, State.openSecond_tbu_of_epoch (s := s.awaitSecond n) hv], ?_⟩
  rw [opened]
  exact State.Silent.trans (t := s.awaitSecond n) ⟨fun _ => rfl, rfl, rfl⟩ (State.silent_openSecond _ pace)

/-- Where an epoch is due, taking it leaves ports and composers alone, and takes the pending period and length (R15). -/
theorem State.meetEpoch_takes {s : State} {v : BitVec 16} (hs : s.tbu.tickCount = s.tbu.nextSecond)
    (hv : s.tbu.pendEpoch = some v) :
    (∃ n, s.meetEpoch.tbu = (s.awaitSecond n).tbu.secondTaken.epochTaken v) ∧ s.meetEpoch.ports = s.ports ∧
      s.meetEpoch.feeds = s.feeds := by
  have reached := s.secondReached_iff.mpr hs
  obtain ⟨n, -, opened⟩ := State.secondBoundary_of_reached reached .epochFirst
  rw [State.meetEpoch_of_epoch reached hv]
  refine ⟨⟨n, by rw [opened, State.openSecond_tbu_of_epoch (s := s.awaitSecond n) hv]⟩, ?_⟩
  rw [opened]
  exact (s.awaitSecond n).openSecond_epochFirst_outside

/-- Settles O10: the boundary is opened by the TBU, its parties leave the TBU alone, and each row that takes a pending value opens the
boundary that takes it. -/
theorem cycleBoundaryCountsAndTakesPendingValues : Obligations.CycleBoundaryCountsAndTakesPendingValues := by
  unfold Obligations.CycleBoundaryCountsAndTakesPendingValues
  refine ⟨fun s reached cycle => ⟨?_, fun order pace => ⟨_, rfl, ?_, ?_⟩⟩, fun s p hp reached => ?_, fun s p v hp hs hv => ?_,
    fun s c hc reached cycle => ?_, fun s c v hc hs hv => ?_⟩
  · obtain ⟨opened, frame, map, live, commits⟩ := State.cycleBoundary_opened reached cycle
    refine ⟨s.openSlot, congrArg _ opened, frame, map, fun f e => by rw [live, Live.lowered_eq], ?_, ?_, ?_⟩
    all_goals rw [commits, List.map_map]; rfl
  · rw [(State.cycleBoundary_parts reached cycle order pace).ports]
    exact s.openSlot_outside.1
  · rw [(State.cycleBoundary_parts reached cycle order pace).tbu, State.openSlot_tbu, Tbu.next_of_cycle cycle]
    rfl
  · obtain ⟨ports, -, feeds⟩ := s.openSlot_outside
    refine ⟨s.openSlot, ?_, ?_, ?_⟩
    · simp [exec, execPendingSlotPeriodTaken, hp, reached]
    · simp [exec, execSlotBoundary, State.slotBoundary, State.meetSlot, State.closeSlot, State.slotParts, reached]
    · rw [State.openSlot_tbu]
      simp [Tbu.nextSlot, Tbu.advance, Tbu.period_of_pending hp, ports, feeds]
  · obtain ⟨⟨n, htbu⟩, ports, feeds⟩ := State.meetEpoch_takes hs hv
    have period : (s.awaitSecond n).tbu.secondTaken.period = p := Tbu.period_of_pending (t := (s.awaitSecond n).tbu.secondTaken) hp
    refine ⟨s.meetEpoch, ?_, ?_, ?_⟩
    · simp [exec, execPendingSlotPeriodTaken, hp, State.slotReached_of_epoch hs hv]
    · simp [exec, execEpoch, State.epochStep, State.cycleParts, State.closeCycle]
    · rw [htbu]
      simp [Tbu.epochTaken, period, ports, feeds]
  · obtain ⟨ports, -, feeds⟩ := s.openSlot_outside
    refine ⟨s.openSlot, ?_, ?_⟩
    · simp [exec, execPendingCycleLengthTaken, hc, State.cycleReached_of reached cycle]
    · rw [State.openSlot_tbu, Tbu.next_of_cycle cycle]
      simp [hc, ports, feeds]
  · obtain ⟨⟨n, htbu⟩, ports, feeds⟩ := State.meetEpoch_takes hs hv
    have length : (s.awaitSecond n).tbu.secondTaken.pendCycleLen = some c := hc
    refine ⟨s.meetEpoch, ?_, ?_⟩
    · simp [exec, execPendingCycleLengthTaken, hc, State.cycleReached, State.slotReached_of_epoch hs hv]
    · rw [htbu]
      simp [Tbu.epochTaken, length, ports, feeds]

/-! ### Epochs (R15) -/

/-- Settles O11: the second boundary takes the epoch as one change of the TBU, and the cycle boundary's parties send no cell. -/
theorem epochRestartsCycleAndSlots : Obligations.EpochRestartsCycleAndSlots := by
  unfold Obligations.EpochRestartsCycleAndSlots
  intro s v hs hv
  have reached := s.secondReached_iff.mpr hs
  refine ⟨State.slotReached_of_epoch hs hv, fun order pace => ⟨_, rfl, ?_⟩, fun pace => ⟨_, rfl, ?_⟩⟩
  · obtain ⟨n, hn, htbu, silent⟩ := State.secondBoundary_epoch hs hv .epochFirst
    rw [← State.meetEpoch_of_epoch reached hv] at htbu silent
    have all := (silent.trans (State.silent_cycleParts _ order)).trans (State.silent_closeCycle _ pace)
    rw [hn]
    exact ⟨(s.epochStep_tbu order pace).trans htbu, all.feeds, all.monitor, all.ports⟩
  · obtain ⟨n, hn, htbu, silent⟩ := State.secondBoundary_epoch hs hv pace
    rw [hn]
    exact ⟨htbu, silent.feeds, silent.monitor, silent.ports⟩

end Sys2Proof.Machine
end

section
/-! PROOFS. Second marks, counter periods, counters and the report queue (sections 1.2, 9.2 and 9.3). -/

namespace Sys2Proof.Machine

/-! ### Second marks (R3 to R6) -/

theorem exec_secondMark (pace : SecondPace) (s : State) : exec (.secondMark pace) s = .next (s.secondMark pace) := rfl

theorem exec_markWindowExpiry (s : State) :
    exec .markWindowExpiry s = .next (if s.markWindowClosed then s.enterHoldover else s) := rfl

/-- The MLT after an event handed to it (R161, R162). -/
def Mlt.offered (m : Mlt) (r : Report) (tick : BitVec 32) (cycle : BitVec 16) : Mlt :=
  if m.admits r then m.enqueue r tick cycle else m

/-- A report changes the MLT only (R161). -/
theorem State.handReport_offered (s : State) (r : Report) :
    s.handReport r = { s with mlt := s.mlt.offered r s.stamp s.tbu.cycleNo } := by
  unfold State.handReport Mlt.offered
  split <;> rfl

/-- A change of RefState hands its report and changes the TBU alone (R7). -/
theorem State.setRef_eq (s : State) (r : RefState) :
    s.setRef r = { s.handReport (.timebaseState s.tbu.refState r) with tbu := { s.tbu with refState := r } } := by
  rw [State.setRef, State.handReport_offered, State.handReport_offered]
  rfl

/-- A re-phase with no second boundary at the mark changes the TBU only (R3). -/
theorem State.rephase_quiet {s : State} (h : s.tbu.boundaryAtMark = false) (pace : SecondPace) :
    s.rephase pace =
      { s with
        tbu := { s.tbu with nextSecond := s.tbu.tickCount + 16384000, expMark := some (s.tbu.tickCount + 16384000) } } := by
  unfold State.rephase
  rw [if_neg (by simp [h])]
  rfl

/-- A re-phase with a second boundary at the mark and no epoch pending counts the second, and makes the transfer that it may call
for (R3, R166). -/
theorem State.rephase_counts {s : State} (h : s.tbu.boundaryAtMark = true) (hv : s.tbu.pendEpoch = none) (pace : SecondPace) :
    ∃ n, s.tbu.tickCount + 16384000 = n ∧
      s.rephase pace =
        (State.countSecond { s with tbu := { s.tbu with nextSecond := n, expMark := some n } }).transferPart := by
  obtain ⟨n, hn⟩ : ∃ n, s.tbu.afterMark = n := ⟨_, rfl⟩
  refine ⟨n, hn, ?_⟩
  unfold State.rephase
  rw [if_pos h, hn]
  exact State.openSecond_of_no_epoch (s := { s with tbu := { s.tbu with nextSecond := n, expMark := some n } }) hv pace

/-- A re-phase with a second boundary at the mark, in the words of section 1.2. -/
theorem State.rephase_second {s : State} (h : s.tbu.boundaryAtMark = true) (hv : s.tbu.pendEpoch = none) (pace : SecondPace) :
    (s.rephase pace).tbu =
        { s.tbu with
          nextSecond := s.tbu.tickCount + 16384000, expMark := some (s.tbu.tickCount + 16384000),
          secNo := s.tbu.secNo + 1, lastSecond := some s.tbu.tickCount } ∧
      (s.mlt.secsLeft ≠ some 1 → s.mlt.secsLeft ≠ some 0 →
        s.rephase pace =
          { s with
            tbu := (s.rephase pace).tbu, mlt := { s.mlt with secsLeft := s.mlt.secsLeft.map (fun n => n - 1) } }) := by
  obtain ⟨n, hn, counted⟩ := State.rephase_counts h hv pace
  have htbu : (s.rephase pace).tbu =
      { s.tbu with nextSecond := n, expMark := some n, secNo := s.tbu.secNo + 1, lastSecond := some s.tbu.tickCount } := by
    rw [counted, State.transferPart_tbu]; rfl
  refine ⟨by rw [hn]; exact htbu, fun h1 h0 => ?_⟩
  rw [htbu, counted, State.transferPart_quiet]
  · rfl
  · rw [State.countSecond_mlt, Ne, Mlt.countSecond_ends]
    exact not_or.mpr ⟨h1, h0⟩

/-- A mark within 64 ticks of ExpMark lies in its window (R5). -/
theorem Tbu.markInWindow_iff {t : Tbu} {e : BitVec 48} (h : t.expMark = some e) :
    t.markInWindow = true ↔ (e - t.tickCount).toNat ≤ 64 ∨ (t.tickCount - e).toNat ≤ 64 := by
  have window : t.markInWindow = decide ((t.tickCount - (e - 64)).toNat ≤ 128) := by rw [Tbu.markInWindow, h]; rfl
  rw [window, decide_eq_true_iff]
  bv_omega

theorem Tbu.boundaryAtMark_eq_false_iff (t : Tbu) :
    t.boundaryAtMark = false ↔ ¬ ∀ l, t.lastSecond = some l → 64 < (t.tickCount - l).toNat := by
  rw [← t.boundaryAtMark_iff, Bool.not_eq_true]

/-- A mark that makes no second boundary, or does not re-phase, is not barred by a passed epoch (log entry 20). -/
theorem State.secondMark_of_no_boundary {s : State} (h : s.tbu.boundaryAtMark = false) (pace : SecondPace) :
    s.secondMark pace = s.judgeMark pace := if_neg (by simp [State.markPassed, h])

theorem State.secondMark_of_no_rephase {s : State} (h : s.tbu.markRephases = false) (pace : SecondPace) :
    s.secondMark pace = s.judgeMark pace := if_neg (by simp [State.markPassed, h])

theorem State.judgeMark_free {s : State} (h : s.tbu.refState = .free) (pace : SecondPace) :
    s.judgeMark pace = (s.setRef .locked).rephase pace := by simp [State.judgeMark, h]

theorem State.judgeMark_locked {s : State} (h : s.tbu.refState = .locked) (pace : SecondPace) :
    s.judgeMark pace = if s.tbu.markInWindow then s.rephase pace else s := by simp [State.judgeMark, h]

theorem State.judgeMark_holdover {s : State} (h : s.tbu.refState = .holdover) (pace : SecondPace) :
    s.judgeMark pace = s.holdoverMark pace := by simp [State.judgeMark, h]

@[simp] theorem State.handReport_secsLeft (s : State) (r : Report) : (s.handReport r).mlt.secsLeft = s.mlt.secsLeft := by
  rw [(moves_handReport s r).eq]

theorem State.handReport_eq (s : State) (r : Report) : s.handReport r = { s with mlt := (s.handReport r).mlt } := by
  rw [State.handReport_offered]

/-- Settles O12: in FREE a mark locks and re-phases; in LOCKED it re-phases in its window and else is ignored. -/
theorem secondMarksInFreeAndLocked : Obligations.SecondMarksInFreeAndLocked := by
  unfold Obligations.SecondMarksInFreeAndLocked
  refine ⟨fun s href => ?_, fun s e href hexp => ?_⟩
  · have rephases : s.tbu.markRephases = true := by simp [Tbu.markRephases, href]
    have setRef := s.setRef_eq .locked
    rw [href] at setRef
    have tbu : (s.setRef .locked).tbu = { s.tbu with refState := .locked } := State.setRef_tbu s .locked
    refine fun pace => ⟨fun boundary hv hpass => ?_, fun quiet => ?_, fun boundary hpass => ?_⟩
    · have at_mark : (s.setRef .locked).tbu.boundaryAtMark = true := by
        rw [tbu]; exact s.tbu.boundaryAtMark_iff.mpr boundary
      obtain ⟨htbu, frame⟩ := State.rephase_second at_mark (by rw [tbu]; exact hv) pace
      refine ⟨(s.setRef .locked).rephase pace, ?_, ?_, fun h1 h0 => ?_⟩
      · rw [exec_secondMark, State.secondMark_of_not_passed hpass, State.judgeMark_free href]
      · rw [htbu, tbu]
      · have mlt : (s.setRef .locked).mlt = (s.handReport (.timebaseState .free .locked)).mlt := by rw [setRef]
        have same : (s.setRef .locked).mlt.secsLeft = s.mlt.secsLeft := by rw [mlt, State.handReport_secsLeft]
        have := frame (by rw [same]; exact h1) (by rw [same]; exact h0)
        rw [mlt, State.handReport_secsLeft] at this
        rw [this]
        refine ⟨?_, rfl⟩
        rw [setRef, State.handReport_eq]
    · have no_mark : s.tbu.boundaryAtMark = false := s.tbu.boundaryAtMark_eq_false_iff.mpr quiet
      rw [exec_secondMark, State.secondMark_of_no_boundary no_mark, State.judgeMark_free href, State.rephase_quiet (by rw [tbu]; exact no_mark),
        setRef]
    · rw [exec_secondMark, State.secondMark, if_pos]
      simp [State.markPassed, hpass, rephases, s.tbu.boundaryAtMark_iff.mpr boundary]
  · refine fun pace => ⟨fun near => ⟨fun boundary hv hpass => ?_, fun quiet => ?_⟩, fun far => ?_⟩
    · have inWindow := (Tbu.markInWindow_iff hexp).mpr near
      obtain ⟨htbu, frame⟩ := State.rephase_second (s.tbu.boundaryAtMark_iff.mpr boundary) hv pace
      refine ⟨s.rephase pace, ?_, htbu, fun h1 h0 => ?_⟩
      · rw [exec_secondMark, State.secondMark_of_not_passed hpass, State.judgeMark_locked href, if_pos inWindow]
      · have := frame h1 h0
        exact ⟨by rw [this], by rw [this]⟩
    · have inWindow := (Tbu.markInWindow_iff hexp).mpr near
      have no_mark : s.tbu.boundaryAtMark = false := s.tbu.boundaryAtMark_eq_false_iff.mpr quiet
      rw [exec_secondMark, State.secondMark_of_no_boundary no_mark, State.judgeMark_locked href, if_pos inWindow, State.rephase_quiet no_mark]
    · have outside : s.tbu.markInWindow = false := by
        rw [← Bool.not_eq_true, Tbu.markInWindow_iff hexp]
        omega
      rw [exec_secondMark, State.secondMark_of_no_rephase (by simp [Tbu.markRephases, href, outside]), State.judgeMark_locked href,
        if_neg (by simp [outside])]

/-! ### Holdover (R5, R6) -/

theorem Tbu.wellSpaced_iff (t : Tbu) :
    t.wellSpaced = true ↔
      ∃ l, t.lastMark = some l ∧ 16383936 ≤ (t.tickCount - l).toNat ∧ (t.tickCount - l).toNat ≤ 16384064 := by
  unfold Tbu.wellSpaced
  cases t.lastMark with
  | none => simp
  | some l => simp [Config.ticksPerSecond, Config.markWindow]

/-- The mark window of a LOCKED timebase closes 65 ticks after ExpMark, at no other tick and in no other RefState (R5). -/
theorem State.markWindowClosed_iff (s : State) :
    s.markWindowClosed = true ↔ s.tbu.refState = .locked ∧ ∃ e, s.tbu.expMark = some e ∧ s.tbu.tickCount = e + 65 := by
  unfold State.markWindowClosed
  cases s.tbu.expMark <;> simp

/-- The third well spaced mark locks the timebase again (R6). -/
theorem State.holdoverMark_third {s : State} (run : s.tbu.relockRun = 2) (spaced : s.tbu.wellSpaced = true) (pace : SecondPace) :
    s.holdoverMark pace = ((s.setRef .locked).endRun).rephase pace := by
  simp [State.holdoverMark, run, spaced]

/-- Settles O13: the table of R6 row by row, and the expiry of the mark window. -/
theorem holdoverEnteredAndLeft : Obligations.HoldoverEnteredAndLeft := by
  unfold Obligations.HoldoverEnteredAndLeft
  refine ⟨fun s href => ?_, fun s e href hexp htick => ?_, fun s href => ?_, fun s e hexp htick => ?_⟩
  · refine fun pace => ⟨fun begins => ?_, fun run spaced => ?_, fun run spaced hv hpass => ?_⟩
    · rw [← Tbu.wellSpaced_iff, Bool.not_eq_true] at begins
      have no_rephase : s.tbu.markRephases = false := by
        rcases begins with h | h <;> simp [Tbu.markRephases, href, h]
      rw [exec_secondMark, State.secondMark_of_no_rephase no_rephase, State.judgeMark_holdover href]
      rcases begins with h | h <;> simp [State.holdoverMark, h, State.markRun]
    · rw [← Tbu.wellSpaced_iff] at spaced
      rw [exec_secondMark, State.secondMark_of_no_rephase (by simp [Tbu.markRephases, run, href]), State.judgeMark_holdover href]
      simp [State.holdoverMark, run, spaced, State.markRun]
    · rw [← Tbu.wellSpaced_iff] at spaced
      have setRef := s.setRef_eq .locked
      rw [href] at setRef
      have tbu : ((s.setRef .locked).endRun).tbu = { s.tbu with refState := .locked, relockRun := 0, lastMark := none } := by
        rw [State.endRun_tbu, State.setRef_tbu]
      have mlt : ((s.setRef .locked).endRun).mlt = (s.handReport (.timebaseState .holdover .locked)).mlt := by
        rw [setRef]; rfl
      refine ⟨((s.setRef .locked).endRun).rephase pace, ?_, ?_⟩
      · rw [exec_secondMark, State.secondMark_of_not_passed hpass, State.judgeMark_holdover href, State.holdoverMark_third run spaced]
      · cases hb : s.tbu.boundaryAtMark with
        | true =>
          obtain ⟨htbu, frame⟩ := State.rephase_second (s := (s.setRef .locked).endRun) (by rw [tbu]; exact hb)
            (by rw [tbu]; exact hv) pace
          refine ⟨fun h1 h0 => ?_, by rw [htbu, tbu], fun _ => by rw [htbu, tbu]; exact ⟨rfl, rfl⟩,
            fun quiet => absurd (s.tbu.boundaryAtMark_iff.mp hb) quiet⟩
          have same : ((s.setRef .locked).endRun).mlt.secsLeft = s.mlt.secsLeft := by rw [mlt, State.handReport_secsLeft]
          have := frame (by rw [same]; exact h1) (by rw [same]; exact h0)
          rw [this]
          refine ⟨?_, by rw [mlt]⟩
          rw [setRef, State.handReport_eq]
          rfl
        | false =>
          rw [State.rephase_quiet (s := (s.setRef .locked).endRun) (by rw [tbu]; exact hb), tbu]
          refine ⟨fun _ _ => ⟨?_, by rw [mlt]⟩, rfl, fun boundary => absurd boundary (s.tbu.boundaryAtMark_eq_false_iff.mp hb),
            fun _ => ⟨rfl, rfl⟩⟩
          rw [setRef, State.handReport_eq]
          rfl
  · have closed : s.markWindowClosed = true := s.markWindowClosed_iff.mpr ⟨href, e, hexp, htick⟩
    have setRef := s.setRef_eq .holdover
    rw [href] at setRef
    rw [exec_markWindowExpiry, if_pos closed]
    simp only [State.enterHoldover, State.endRun_tbu, State.setRef_tbu]
    rw [setRef]
    rfl
  · rw [exec_markWindowExpiry, if_neg]
    rw [s.markWindowClosed_iff]
    exact fun h => href h.1
  · rw [exec_markWindowExpiry, if_neg]
    rw [s.markWindowClosed_iff]
    rintro ⟨-, e', he', ht⟩
    rw [hexp] at he'
    obtain rfl := Option.some.inj he'
    exact htick ht

/-! ### Counter periods and counters (R164 to R166) -/

/-- AUTO_COUNTER_TRANSFER acts at the second boundary that ends a counter period in AUTO (R166). -/
theorem State.transferComes_iff (s : State) :
    s.transferComes = true ↔ s.tbu.tickCount = s.tbu.nextSecond ∧ s.mlt.counterMode = .auto ∧
      (s.mlt.secsLeft = some 1 ∨ s.mlt.secsLeft = some 0) := by
  simp only [State.transferComes, Bool.and_eq_true, decide_eq_true_eq, Mlt.countSecond_ends, s.secondReached_iff, and_assoc]

/-- A counter is read at its own place (R168). -/
theorem CounterId.index_injective : Function.Injective CounterId.index := by
  intro c d h
  have h' : c.index.val = d.index.val := congrArg Fin.val h
  cases c with
  | port p a =>
    cases d with
    | port p' a' =>
      simp only [CounterId.index] at h'
      have ha := a.code.isLt
      have ha' := a'.code.isLt
      have hp : p = p' := Fin.ext (by omega)
      have hc : a.code.val = a'.code.val := by omega
      subst hp
      have : a = a' := by revert hc; cases a <;> cases a' <;> decide
      rw [this]
    | feed f b =>
      simp only [CounterId.index] at h'
      have := p.isLt
      have := a.code.isLt
      omega
  | feed f b =>
    cases d with
    | port p a =>
      simp only [CounterId.index] at h'
      have := p.isLt
      have := a.code.isLt
      omega
    | feed f' b' =>
      simp only [CounterId.index] at h'
      have hb := b.code.isLt
      have hb' := b'.code.isLt
      have hf : f = f' := Fin.ext (by omega)
      have hc : b.code.val = b'.code.val := by omega
      subst hf
      have : b = b' := by revert hc; cases b <;> cases b' <;> decide
      rw [this]

@[simp] theorem State.handReport_counters (s : State) (r : Report) : (s.handReport r).counters = s.counters := by
  rw [s.handReport_eq r]

/-- A count that does not reach 65535 from below with its SatMark clear (R164). -/
theorem State.count_quiet {s : State} {c : CounterId} {n : Nat}
    (h : ¬ (min (s.counter c + n) 65535 = 65535 ∧ s.counter c < 65535 ∧ s.counters.satMark.get c.index = false)) :
    s.count c n =
      { s with counters := { s.counters with live := upd s.counters.live c.index (min (s.counter c + n) 65535) } } :=
  if_neg h

/-- A count that reaches 65535 from below with its SatMark clear sets the mark and hands COUNTER-SATURATED (R164). -/
theorem State.count_saturates {s : State} {c : CounterId} {n : Nat}
    (h : min (s.counter c + n) 65535 = 65535 ∧ s.counter c < 65535 ∧ s.counters.satMark.get c.index = false) :
    s.count c n =
      { s.handReport (.counterSaturated c.index.val s.mlt.transferNo) with
        counters :=
          { live := upd s.counters.live c.index (min (s.counter c + n) 65535), held := s.counters.held,
            satMark := upd s.counters.satMark c.index true } } := by
  refine (if_pos h).trans ?_
  rw [State.handReport_offered, State.handReport_offered]
  rfl

/-- What a count does to the counters, in both cases (R164). -/
theorem State.count_counters (s : State) (c : CounterId) (n : Nat) :
    (s.count c n).counters.live = upd s.counters.live c.index (min (s.counter c + n) 65535) ∧
      (s.count c n).counters.held = s.counters.held := by
  by_cases h : min (s.counter c + n) 65535 = 65535 ∧ s.counter c < 65535 ∧ s.counters.satMark.get c.index = false
  · rw [State.count_saturates h]; exact ⟨rfl, rfl⟩
  · rw [State.count_quiet h]; exact ⟨rfl, rfl⟩

theorem State.count_counter (s : State) (c : CounterId) (n : Nat) : (s.count c n).counter c = min (s.counter c + n) 65535 := by
  rw [State.counter, (s.count_counters c n).1, upd_get_same]

theorem State.count_counter_other (s : State) {c d : CounterId} (h : d ≠ c) (n : Nat) : (s.count c n).counter d = s.counter d := by
  rw [State.counter, (s.count_counters c n).1, upd_get_other _ _ fun e => h (CounterId.index_injective e).symm]
  rfl

/-- The transfer of a counter period in AUTO, on the state in which the second has been counted (R165, R166). -/
theorem State.autoTransfer_eq (s : State) :
    s.autoTransfer =
      State.handReport
        { s with
          counters := { live := Vector.replicate 81 0, held := s.counters.live, satMark := Vector.replicate 81 false }
          mlt :=
            { s.mlt with
              transferNo := s.mlt.transferNo + 1, lastTransfer := some (s.tbu.secNo, s.tbu.cycleNo),
              secsLeft := some s.mlt.period } }
        (.counterReport (s.mlt.transferNo + 1) s.tbu.secNo s.tbu.cycleNo s.mlt.period (s.counters.live.map (fun v => v ≠ 0))) :=
  rfl

theorem State.openEpoch_counters (s : State) : s.openEpoch.counters = s.counters := by
  unfold State.openEpoch
  split <;> rfl

/-- A report leaves TransferNo, LastTransfer and SecsLeft alone (R161). -/
theorem State.handReport_transfer (s : State) (r : Report) :
    (s.handReport r).mlt.transferNo = s.mlt.transferNo ∧ (s.handReport r).mlt.lastTransfer = s.mlt.lastTransfer ∧
      (s.handReport r).mlt.secsLeft = s.mlt.secsLeft := by
  rw [(moves_handReport s r).eq]
  exact ⟨rfl, rfl, rfl⟩

/-- Settles O14: at a period's end in AUTO every pace makes the transfer; a count stops at 65535 and reports once. -/
theorem countersSaturateAndTransfer : Obligations.CountersSaturateAndTransfer := by
  unfold Obligations.CountersSaturateAndTransfer
  refine ⟨⟨fun s hs auto ends => ?_, fun s quiet => ?_⟩, fun s c n => ⟨s.count_counter c n,
    fun d hd => s.count_counter_other hd n, (s.count_counters c n).2, fun h => ?_, fun h => ?_⟩⟩
  · have comes : s.transferComes = true := s.transferComes_iff.mpr ⟨hs, auto, .inl ends⟩
    have countEnds : s.mlt.countSecond.secsLeft = some 0 := s.mlt.countSecond_ends.mpr (.inl ends)
    have row : exec .autoCounterTransfer s = .next (s.secondBoundary .transferFirst) := congrArg _ (if_pos comes)
    obtain ⟨n, hn, -⟩ := State.secondBoundary_of_reached (s.secondReached_iff.mpr hs) .whole
    have opened : ∀ pace, s.secondBoundary pace = (s.awaitSecond n).openSecond pace := fun pace => by
      obtain ⟨m, hm, h⟩ := State.secondBoundary_of_reached (s.secondReached_iff.mpr hs) pace
      rw [h, ← hm, hn]
    have ended : (s.awaitSecond n).countSecond.transferPart = (s.awaitSecond n).countSecond.autoTransfer :=
      State.transferPart_ends auto countEnds
    have hn' : s.tbu.nextSecond + 16384000 = n := hn
    rw [hn']
    refine ⟨fun hv => ?_, ⟨_, row, rfl, ?_, ?_⟩, fun v hv => ⟨_, rfl, ?_⟩⟩
    · have taken : ∀ pace, s.secondBoundary pace = (s.awaitSecond n).countSecond.autoTransfer := fun pace => by
        rw [opened, State.openSecond_of_no_epoch (s := s.awaitSecond n) hv, ended]
      exact ⟨row.trans (congrArg _ (taken _)), fun pace => congrArg _ (taken pace)⟩
    · rw [opened, State.openSecond, State.openEpoch_mlt, ended]
      rfl
    · rw [opened, State.openSecond, State.openEpoch_counters, ended]
      rfl
    · have epoch : (s.awaitSecond n).countSecond.openEpoch.transferPart = (s.awaitSecond n).countSecond.openEpoch.autoTransfer :=
        State.transferPart_ends (by rw [State.openEpoch_mlt]; exact auto) (by rw [State.openEpoch_mlt]; exact countEnds)
      have htbu : (s.awaitSecond n).countSecond.openEpoch.tbu = (s.awaitSecond n).countSecond.tbu.epochTaken v :=
        State.openEpoch_tbu hv
      have hlive : (s.awaitSecond n).countSecond.openEpoch.counters = s.counters := State.openEpoch_counters _
      rw [opened, State.openSecond, epoch, State.autoTransfer_eq, State.handReport_counters, State.handReport_counters, hlive]
      obtain ⟨no, last, left⟩ := State.handReport_transfer
        { (s.awaitSecond n).countSecond.openEpoch with
          counters :=
            { live := Vector.replicate 81 0, held := (s.awaitSecond n).countSecond.openEpoch.counters.live,
              satMark := Vector.replicate 81 false }
          mlt :=
            { (s.awaitSecond n).countSecond.openEpoch.mlt with
              transferNo := (s.awaitSecond n).countSecond.openEpoch.mlt.transferNo + 1,
              lastTransfer := some ((s.awaitSecond n).countSecond.openEpoch.tbu.secNo,
                (s.awaitSecond n).countSecond.openEpoch.tbu.cycleNo),
              secsLeft := some (s.awaitSecond n).countSecond.openEpoch.mlt.period } }
        (.counterReport ((s.awaitSecond n).countSecond.openEpoch.mlt.transferNo + 1)
          (s.awaitSecond n).countSecond.openEpoch.tbu.secNo (s.awaitSecond n).countSecond.openEpoch.tbu.cycleNo
          (s.awaitSecond n).countSecond.openEpoch.mlt.period
          ((s.awaitSecond n).countSecond.openEpoch.counters.live.map (fun v => v ≠ 0)))
      rw [hlive] at no last left
      refine ⟨no.trans ?_, last.trans ?_, left.trans ?_, rfl⟩
      · rw [State.openEpoch_mlt]; rfl
      · rw [htbu]; rfl
      · rw [State.openEpoch_mlt]; rfl
  · refine congrArg _ (if_neg ?_)
    rw [s.transferComes_iff]
    rintro ⟨hs, auto, ends⟩
    rcases quiet with h | h | ⟨h1, h0⟩
    · exact h hs
    · rw [h] at auto; cases auto
    · exact ends.elim h1 h0
  · rw [s.count_counter] at h
    rw [State.count_saturates h]
    exact ⟨upd_get_same _ _ _, rfl⟩
  · rw [s.count_counter] at h
    rw [State.count_quiet h]
    exact ⟨rfl, rfl⟩

/-! ### The report queue (R161, R162) -/

/-- An event is admitted by its enable bit and its edge mode (R161). -/
theorem Mlt.admits_iff (m : Mlt) (r : Report) :
    m.admits r = true ↔ m.enables.getLsbD r.kind.code = true ∧
      (∀ p old new, r = .portState p old new → m.portEdge = .anyChange ∨ old = .live) ∧
      (∀ old new, r = .timebaseState old new → m.timebaseEdge = .anyChange ∨ old = .locked) ∧
      (∀ p old new, r = .patternState p old new → m.patternEdge = .anyChange ∨ old = .locked) := by
  rw [Mlt.admits, Bool.and_eq_true]
  refine and_congr_right fun _ => ?_
  cases r <;> simp [Mlt.edgeAdmits]

/-- Settles O16: an event is admitted or not, and an admitted one finds a place or is dropped. -/
theorem reportQueueKeepsOrDrops : Obligations.ReportQueueKeepsOrDrops := by
  unfold Obligations.ReportQueueKeepsOrDrops
  intro s r
  rw [← s.mlt.admits_iff r]
  refine ⟨fun no => if_neg no, fun yes room => ?_, fun yes full => ?_⟩
  · rw [State.handReport, if_pos yes, Mlt.enqueue,
      if_pos (show s.mlt.reports.length < Config.reportPlaces from room)]
    rfl
  · rw [State.handReport, if_pos yes, Mlt.enqueue,
      if_neg (show ¬ s.mlt.reports.length < Config.reportPlaces from full)]
    rfl

end Sys2Proof.Machine
end

section
/-! SUPPORT. The cells that the part forms, a slot boundary that hands one part to a party, and the pattern sequence (chapters 9 to
11). -/

namespace Sys2Proof.Machine

/-! ### Header and bytes of a cell (R178) -/

/-- The three bytes of a header word spell it back. -/
theorem headerBytes_joined (w : BitVec 24) : w.extractLsb' 16 8 ++ w.extractLsb' 8 8 ++ w.extractLsb' 0 8 = w := by
  ext i hi
  simp
  grind

theorem kindOf_code (k : Kind) : kindOf k.code = k := by cases k <;> rfl

/-- Where each field of a header stands in its word. -/
theorem Header.word_fields (h : Header) :
    h.word.extractLsb' 22 2 = h.kind.code ∧ h.word.extractLsb' 10 12 = h.tag ∧ h.word.getLsbD 9 = h.boundary ∧
      h.word.getLsbD 8 = h.marked ∧ h.word.getLsbD 7 = h.disc ∧ h.word.extractLsb' 0 4 = h.cont := by
  unfold Header.word
  refine ⟨?_, ?_, ?_, ?_, ?_, ?_⟩
  · ext i hi
    simp
    grind
  · ext i hi
    simp
    grind
  · grind
  · grind
  · grind
  · ext i hi
    simp
    grind

/-- The first three bytes of a header read back as its fields. -/
theorem headerOf_headerBytes (h : Header) (check : Byte) :
    headerOf (h.word.extractLsb' 16 8) (h.word.extractLsb' 8 8) (h.word.extractLsb' 0 8) check = { h with check := check } := by
  obtain ⟨hk, ht, hb, hm, hd, hc⟩ := h.word_fields
  simp only [headerOf, headerBytes_joined, hk, ht, hb, hm, hd, hc, kindOf_code]

/-! ### One part of a slot boundary -/

/-- A slot boundary that is open already, with one part taken. -/
theorem exec_slotPart {s : State} (h : s.slotReached = false) (p : SlotPart) :
    exec (.slotBoundary [p] .listed) s = .next (s.slotPart p) := by
  have met : s.meetSlot = s := if_neg (by rw [h]; exact Bool.false_ne_true)
  show Host.Outcome.next ((s.meetSlot.slotParts [p]).closeSlot .listed) = _
  rw [met]
  rfl

theorem State.slotPart_feed {s : State} {f : FeedId} (h : hasFeed s.due.slotFeeds f = true) :
    s.slotPart (.feed f) = { s with due := { s.due with slotFeeds := dropFeed s.due.slotFeeds f } }.slotOfFeed f := if_pos h

theorem State.slotPart_monitor {s : State} (h : s.due.monitor = true) :
    s.slotPart .monitor = { s with due := { s.due with monitor := false } }.monitorSend := if_pos h

/-- A feed in TEST that no mode awaits only has its part of a cycle boundary done. -/
theorem State.changeAtCycle_test {s : State} {f : FeedId} (test : (s.feed f).state = .test) (mode : (s.feed f).pendMode = .none) :
    ∃ d, s.changeAtCycle f = { s with due := d } := by
  unfold State.changeAtCycle
  split
  · refine ⟨{ s.due with cycleFeeds := dropFeed s.due.cycleFeeds f }, ?_⟩
    simp only [show State.feed { s with due := { s.due with cycleFeeds := dropFeed s.due.cycleFeeds f } } f = s.feed f from rfl, test,
      mode]
  · exact ⟨s.due, rfl⟩

/-- A feed in TEST that no mode awaits sends a pattern cell. -/
theorem State.slotOfFeed_test {s : State} {f : FeedId} (test : (s.feed f).state = .test) (mode : (s.feed f).pendMode = .none) :
    ∃ d, s.slotOfFeed f = { s.sendPattern f with due := d } := by
  obtain ⟨d, rested⟩ := State.changeAtCycle_test test mode
  refine ⟨d, ?_⟩
  rw [State.slotOfFeed, if_neg (by rw [mode]; decide)]
  simp only [rested, show State.feed { s with due := d } f = s.feed f from rfl, test]
  rfl

/-! ### The cells of the monitor link (R158, R159) -/

theorem padTo_length (n : Nat) (bs : List Byte) : (padTo n bs).length = n := by
  rw [padTo, List.length_take, List.length_append, List.length_replicate]
  omega

/-! ### The pattern sequence (R171) -/

/-- The last 17 bits that the generator produced, the oldest first. -/
def lastBits (g : BitVec 17) : List Bool := (List.range 17).map (fun k => g.getLsbD (16 - k))

theorem lastBits_length (g : BitVec 17) : (lastBits g).length = 17 := by simp [lastBits]

theorem lastBits_getD (g : BitVec 17) {k : Nat} (hk : k < 17) : (lastBits g).getD (16 - k) false = g.getLsbD k := by
  have place : 16 - (16 - k) = k := by omega
  simp [lastBits, List.getD_eq_getElem?_getD, show 16 - k < 17 by omega, place]

theorem genPush_getLsbD_zero (g : BitVec 17) (b : Bool) : (genPush g b).getLsbD 0 = b := by simp [genPush]

theorem genPush_getLsbD_succ (g : BitVec 17) (b : Bool) {k : Nat} (hk : k + 1 < 17) :
    (genPush g b).getLsbD (k + 1) = g.getLsbD k := by
  simp [genPush, hk, BitVec.getLsbD_eq_getElem (show k < 17 by omega)]

/-- A new bit comes to the end of the last bits, and the oldest of them goes. -/
theorem lastBits_genPush (g : BitVec 17) (b : Bool) : lastBits g ++ [b] = g.getLsbD 16 :: lastBits (genPush g b) := by
  have first : List.range 17 = 0 :: (List.range 16).map Nat.succ := List.range_succ_eq_map
  have last : List.range 17 = List.range 16 ++ [16] := List.range_succ
  rw [lastBits, first, lastBits, last]
  simp only [List.map_cons, List.map_append, List.map_map, List.map_nil, List.cons_append, Nat.sub_zero, Nat.sub_self,
    genPush_getLsbD_zero]
  refine congrArg (fun l => g.getLsbD 16 :: (l ++ [b])) (List.map_congr_left fun k hk => ?_)
  have inRange : k < 16 := List.mem_range.mp hk
  rw [Function.comp, show 16 - k = 15 - k + 1 by omega, genPush_getLsbD_succ g b (by omega)]
  exact congrArg g.getLsbD (by omega)

theorem genBit_lastBits (g : BitVec 17) : genBit g = ((lastBits g).getD 0 false ^^ (lastBits g).getD 3 false) := by
  simp [genBit, lastBits, List.getD_eq_getElem?_getD]

/-- The generator's bits after its last 17: each step drops the oldest bit and runs on (R171). -/
theorem lastBits_genRun_succ (n : Nat) (g : BitVec 17) :
    lastBits g ++ (genRun (n + 1) g).1 =
      g.getLsbD 16 :: (lastBits (genPush g (genBit g)) ++ (genRun n (genPush g (genBit g))).1) := by
  rw [genRun, ← List.cons_append, ← lastBits_genPush, List.append_assoc]
  rfl

/-- Every bit is the exclusive-or of the bits 17 and 14 places before it (R171). -/
theorem genRun_recurs (n : Nat) (g : BitVec 17) {k : Nat} (hk : k < n) :
    (lastBits g ++ (genRun n g).1).getD (k + 17) false =
      ((lastBits g ++ (genRun n g).1).getD k false ^^ (lastBits g ++ (genRun n g).1).getD (k + 3) false) := by
  induction n generalizing g k with
  | zero => omega
  | succ n ih =>
    cases k with
    | zero =>
      have early {j : Nat} (hj : j < 17) (l : List Bool) : (lastBits g ++ l).getD j false = (lastBits g).getD j false := by
        rw [List.getD_append _ _ _ _ (by rw [lastBits_length]; exact hj)]
      rw [early (show 0 < 17 by decide), early (show 0 + 3 < 17 by decide), ← genBit_lastBits,
        List.getD_append_right _ _ _ _ (by rw [lastBits_length]), lastBits_length]
      rfl
    | succ k =>
      rw [lastBits_genRun_succ, Nat.add_right_comm k 1 17, Nat.add_right_comm k 1 3]
      simp only [List.getD_cons_succ]
      exact ih _ (by omega)

/-- The generator's state is the last 17 bits (R171). -/
theorem genRun_state (n : Nat) (g : BitVec 17) {k : Nat} (hk : k < 17) :
    (genRun n g).2.getLsbD k = (lastBits g ++ (genRun n g).1).getD (n + 16 - k) false := by
  induction n generalizing g with
  | zero => rw [genRun, List.append_nil, Nat.zero_add, lastBits_getD g hk]
  | succ n ih =>
    rw [lastBits_genRun_succ, show n + 1 + 16 - k = n + 16 - k + 1 by omega, List.getD_cons_succ]
    exact ih _

/-- A pattern cell's bits: the generator's, the first inverted when an error was asked for (R172, R174). -/
theorem patternBits_getElem? (bits : List Bool) (inject : Bool) (k : Nat) :
    (if inject then invertFirst bits else bits)[k]? = bits[k]?.map (fun b => b != (inject && k = 0)) := by
  cases inject with
  | false => simp
  | true =>
    cases bits with
    | nil => rfl
    | cons b bits => cases k <;> simp [invertFirst]

end Sys2Proof.Machine
end

section
/-! PROOFS. The statements on the cell that reads back, pattern cells and the monitor link. -/

namespace Sys2Proof.Machine

/-- Settles O55: the bytes of the header spell its word, whose fields stand where a received unit is read. -/
theorem sentCellReadsBack : Obligations.SentCellReadsBack := by
  unfold Obligations.SentCellReadsBack
  intro h payload whole
  have header : unitHeader (Cell.bytes { hdr := h.sealed, payload := payload }) = { h with check := h.sealed.check } :=
    headerOf_headerBytes h.sealed h.sealed.check
  refine ⟨?_, ?_, rfl, ?_, ?_⟩
  · rw [Cell.bytes, List.length_append, whole]
    rfl
  · exact decide_eq_true rfl
  · rw [header]
  · rw [header]
    rfl

/-- Settles O9: the link's one cell by what the MLT holds. -/
theorem monitorCellByPriority : Obligations.MonitorCellByPriority := by
  unfold Obligations.MonitorCellByPriority
  intro s waits due
  rw [exec_slotPart waits, State.slotPart_monitor due, State.monitorSend]
  have address (bs : List Byte) : (e2 s.mgmt.unitAddr.toNat ++ bs).take 2 = bytesOf 2 s.mgmt.unitAddr.toNat := rfl
  dsimp only
  cases responses : s.mlt.responses with
  | cons r rest =>
    refine ⟨_, _, rfl, rfl, rfl, rfl, padTo_length _ _, rfl, rfl, rfl, ?_, ?_, ?_, ?_⟩
    · rfl
    · rintro _ _ ⟨⟩
      exact ⟨rfl, rfl, rfl, rfl, rfl⟩
    · rintro _ _ ⟨⟩
    · rintro ⟨⟩
  | nil =>
    cases reports : s.mlt.reports with
    | cons q rest =>
      refine ⟨_, _, rfl, rfl, rfl, rfl, padTo_length _ _, rfl, rfl, rfl, ?_, ?_, ?_, ?_⟩
      · rfl
      · rintro _ _ ⟨⟩
      · rintro _ _ - ⟨⟩
        exact ⟨rfl, rfl, rfl, rfl, rfl⟩
      · rintro - ⟨⟩
    | nil =>
      refine ⟨_, _, rfl, rfl, rfl, rfl, padTo_length _ _, rfl, rfl, rfl, ?_, ?_, ?_, ?_⟩
      · rfl
      · rintro _ _ ⟨⟩
      · rintro _ _ - ⟨⟩
      · rintro - -
        exact ⟨rfl, rfl, rfl, rfl, rfl⟩

/-- Settles O8: the pattern cell of a feed in TEST, and the sequence by its recurrence. -/
theorem patternCellCarriesSequence : Obligations.PatternCellCarriesSequence := by
  unfold Obligations.PatternCellCarriesSequence
  refine ⟨fun s f waits due test mode => ?_, fun n g => ⟨?_, fun k => genRun_recurs n g, fun k => genRun_state n g⟩, by decide +kernel⟩
  · obtain ⟨d, sent⟩ := State.slotOfFeed_test (s := { s with due := { s.due with slotFeeds := dropFeed s.due.slotFeeds f } })
      (f := f) test mode
    have feed : State.feed { State.sendPattern { s with due := { s.due with slotFeeds := dropFeed s.due.slotFeeds f } } f with
        due := d } f = _ := s.sendPattern_feed f
    have whole := genRun_length Config.patternBits (s.feed f).gen
    rw [exec_slotPart waits, State.slotPart_feed due, sent]
    refine ⟨_, _, rfl, ?_, feed, rfl, rfl, rfl, rfl, rfl, rfl, rfl, padTo_length _ _, fun k _ => ?_⟩
    · rw [feed]
      rfl
    · rw [bitsOf_sentCell (by split; exacts [(invertFirst_length _).trans whole, whole])]
      exact patternBits_getElem? _ _ k
  · rw [List.length_append, genRun_length]
    exact (congrArg (· + n) (lastBits_length g)).trans (Nat.add_comm 17 n)

end Sys2Proof.Machine
end

section
/-! SUPPORT. Accrual and the selection of an entry at a departure (section 5.2). -/

namespace Sys2Proof.Machine

/-! ### The live entries of a feed (R60) -/

theorem mem_usedEntries {t : List (Nat × MapEntry)} {e : Nat} : e ∈ usedEntries t ↔ e < Config.mapEntries ∧ (bankEntry t e).used = true := by
  rw [usedEntries, List.mem_filter, List.mem_range]

/-- The live entries rise. -/
theorem State.liveEntries_sorted (s : State) (f : FeedId) : (s.liveEntries f).Pairwise (· < ·) :=
  List.Pairwise.filter _ List.pairwise_lt_range

/-- Writing a live field leaves the active bank alone. -/
theorem State.setLive_active (s : State) (f g : FeedId) (e : Nat) (v : Live) : ((s.setLive f e v).map g).active = (s.map g).active := by
  by_cases h : f = g
  · subst h; rw [State.setLive, State.setMap_map]; rfl
  · rw [State.setLive, State.setMap_map_other _ _ h]

theorem State.setLive_liveEntries (s : State) (f g : FeedId) (e : Nat) (v : Live) :
    (s.setLive f e v).liveEntries g = s.liveEntries g := by
  rw [State.liveEntries, State.setLive_active]
  rfl

/-- The live fields of a feed in canonical form are sorted. -/
theorem State.live_sorted {s : State} (h : s.wf = true) (f : FeedId) : Table.sorted (s.map f).live = true := by
  obtain ⟨-, maps, -⟩ := s.wf_iff.mp h
  obtain ⟨-, -, live⟩ := (s.map f).wf_iff.mp (maps f)
  exact Table.sorted_of_wf live

/-! ### Accrual (R87) -/

/-- A live entry with its share accrued. -/
def State.accrued (s : State) (f : FeedId) (e : Nat) : Live :=
  { s.live f e with credit := min ((s.live f e).credit + (s.entry f e).share) (2 * s.unitCost) }

theorem State.accrue_eq (s : State) (f : FeedId) (e : Nat) : State.accrue f s e = s.setLive f e (s.accrued f e) := rfl

/-- Accrual over distinct entries reaches each of them once. -/
theorem State.foldl_accrue_live {s : State} (h : s.wf = true) (f : FeedId) {es : List Nat} (distinct : es.Nodup) (e : Nat) :
    (es.foldl (State.accrue f) s).live f e = if e ∈ es then s.accrued f e else s.live f e := by
  induction es generalizing s with
  | nil => rfl
  | cons k es ih =>
    obtain ⟨absent, distinct⟩ := List.nodup_cons.mp distinct
    rw [List.foldl_cons, ih ((moves_accrue f s k).wf h) distinct, State.accrue_eq]
    by_cases same : e = k
    · subst same
      rw [if_neg absent, if_pos List.mem_cons_self, State.setLive_live s f (State.live_sorted h f)]
    · have other := s.setLive_live_other f (s.accrued f k) (Ne.symm same)
      have kept : (s.setLive f k (s.accrued f k)).accrued f e = s.accrued f e := by
        rw [State.accrued, other, State.setLive_entry]; rfl
      simp only [kept, other, List.mem_cons, same, false_or]

/-- Accrual changes the live fields of its feed alone. -/
theorem State.foldl_accrue_maps (s : State) (f : FeedId) (es : List Nat) :
    es.foldl (State.accrue f) s = { s with maps := (es.foldl (State.accrue f) s).maps } ∧
      ∀ g, g ≠ f → (es.foldl (State.accrue f) s).map g = s.map g := by
  induction es generalizing s with
  | nil => exact ⟨rfl, fun _ _ => rfl⟩
  | cons k es ih =>
    obtain ⟨whole, others⟩ := ih (State.accrue f s k)
    exact ⟨whole.trans rfl, fun g hg => (others g hg).trans (s.setMap_map_other _ (Ne.symm hg))⟩

/-! ### The selection arbiter (R91) -/

/-- An entry of a list that has the greatest credit, and the lowest index among equals. -/
def State.Best (s : State) (f : FeedId) (l : List Nat) (e : Nat) : Prop :=
  e ∈ l ∧ ∀ k ∈ l, (s.live f k).credit < (s.live f e).credit ∨ ((s.live f k).credit = (s.live f e).credit ∧ e ≤ k)

theorem State.Best.unique {s : State} {f : FeedId} {l : List Nat} {e e' : Nat} (h : s.Best f l e) (h' : s.Best f l e') : e = e' := by
  obtain ⟨mem, best⟩ := h
  obtain ⟨mem', best'⟩ := h'
  rcases best e' mem' with less | ⟨equal, le⟩
  · rcases best' e mem with less' | ⟨equal', le'⟩ <;> omega
  · rcases best' e mem with less' | ⟨equal', le'⟩ <;> omega

/-- The arbiter goes through rising entries and keeps the best. -/
theorem State.foldl_better (s : State) (f : FeedId) {l : List Nat} (rising : l.Pairwise (· < ·)) :
    (l = [] ∧ l.foldl (s.better f) none = none) ∨ ∃ e, l.foldl (s.better f) none = some e ∧ s.Best f l e := by
  induction l using List.reverseRecOn with
  | nil => exact .inl ⟨rfl, rfl⟩
  | append_singleton l x ih =>
    obtain ⟨rising, -, below⟩ := List.pairwise_append.mp rising
    rw [List.foldl_concat]
    refine .inr ?_
    rcases ih rising with ⟨rfl, start⟩ | ⟨b, found, mem, best⟩
    · exact ⟨x, by rw [start]; rfl, List.mem_singleton_self x, fun k hk => .inr (by rw [List.mem_singleton.mp hk]; omega)⟩
    · rw [found, State.better]
      split
      · next greater =>
        refine ⟨x, rfl, List.mem_append_right _ (List.mem_singleton_self x), fun k hk => ?_⟩
        rcases List.mem_append.mp hk with earlier | last
        · rcases best k earlier with less | ⟨equal, -⟩ <;> exact .inl (by omega)
        · rw [List.mem_singleton.mp last]; exact .inr ⟨rfl, Nat.le_refl x⟩
      · next notGreater =>
        refine ⟨b, rfl, List.mem_append_left _ mem, fun k hk => ?_⟩
        rcases List.mem_append.mp hk with earlier | last
        · exact best k earlier
        · rw [List.mem_singleton.mp last]
          have := below b mem x (List.mem_singleton_self x)
          omega

/-- The entry selected is the best of the eligible live entries (R91). -/
theorem State.select_eq_some (s : State) (f : FeedId) (e : Nat) :
    s.select f = some e ↔ s.Best f ((s.liveEntries f).filter (s.eligible f)) e := by
  rcases s.foldl_better f ((s.liveEntries_sorted f).filter (s.eligible f)) with ⟨none, start⟩ | ⟨b, found, best⟩
  · rw [State.select, start, none]
    exact ⟨nofun, fun h => absurd h.1 List.not_mem_nil⟩
  · rw [State.select, found]
    exact ⟨fun h => Option.some.inj h ▸ best, fun h => congrArg some (best.unique h)⟩

theorem State.select_eq_none (s : State) (f : FeedId) :
    s.select f = none ↔ (s.liveEntries f).filter (s.eligible f) = [] := by
  rcases s.foldl_better f ((s.liveEntries_sorted f).filter (s.eligible f)) with ⟨none, start⟩ | ⟨b, found, mem, -⟩
  · rw [State.select, start]
    exact ⟨fun _ => none, fun _ => rfl⟩
  · rw [State.select, found]
    exact ⟨nofun, fun h => absurd (h ▸ mem) List.not_mem_nil⟩

theorem State.eligible_iff (s : State) (f : FeedId) (e : Nat) :
    s.eligible f e = true ↔ s.headOf f e ≠ none ∧ (s.live f e).estate ≠ .inWait ∧ 0 ≤ (s.live f e).credit := by
  simp [State.eligible, Option.isSome_iff_ne_none, and_assoc]

end Sys2Proof.Machine
end

section
/-! PROOFS. The statement on accrual and selection. -/

namespace Sys2Proof.Machine

/-- Settles O52: accrual entry by entry, and the arbiter over the rising list of the live entries. -/
theorem accrualAndSelection : Obligations.AccrualAndSelection := by
  unfold Obligations.AccrualAndSelection
  refine ⟨fun s f wf => ?_, fun s f => ⟨?_, fun e => ?_⟩⟩
  · obtain ⟨whole, others⟩ := s.foldl_accrue_maps f (s.liveEntries f)
    have distinct : (s.liveEntries f).Nodup := (s.liveEntries_sorted f).imp fun h => Nat.ne_of_lt h
    exact ⟨whole, others, State.foldl_accrue_live wf f distinct⟩
  · rw [s.select_eq_none f, List.filter_eq_nil_iff]
    simp only [s.eligible_iff]
    exact ⟨fun h e he => h e he.1 he.2, fun h e mem el => h e ⟨mem, el⟩⟩
  · rw [s.select_eq_some f e]
    simp only [State.Best, List.mem_filter, s.eligible_iff]

end Sys2Proof.Machine
end

section
/-! SUPPORT. What the operations of the store and of the stream table leave alone: they change the store, and hand reports on
congestion (chapter 3). -/

namespace Sys2Proof.Machine

/-- Only the store and the reports differ, and the reports only where a port is congested. -/
structure Stored (s t : State) : Prop where
  eq : t = { s with store := t.store, mlt := t.mlt }
  reports : s.mlt.reports <+: t.mlt.reports
  quiet : (∀ o, s.store.cong.get o = false) → t.mlt = s.mlt ∧ ∀ o, t.store.cong.get o = false

namespace Stored

theorem refl (s : State) : Stored s s := ⟨rfl, List.prefix_rfl, fun h => ⟨rfl, h⟩⟩

theorem trans {s t u : State} (h : Stored s t) (h' : Stored t u) : Stored s u :=
  ⟨by rw [h'.eq, h.eq], h.reports.trans h'.reports, fun free => by
    obtain ⟨mlt, free⟩ := h.quiet free
    obtain ⟨mlt', free⟩ := h'.quiet free
    exact ⟨mlt'.trans mlt, free⟩⟩

theorem foldl {β : Type} (g : State → β → State) (hg : ∀ s b, Stored s (g s b)) (l : List β) (s : State) :
    Stored s (l.foldl g s) := by
  induction l generalizing s with
  | nil => exact refl s
  | cons b l ih => exact (hg s b).trans (ih _)

theorem counters {s t : State} (h : Stored s t) : t.counters = s.counters := by rw [h.eq]
theorem maps {s t : State} (h : Stored s t) : t.maps = s.maps := by rw [h.eq]
theorem feeds {s t : State} (h : Stored s t) : t.feeds = s.feeds := by rw [h.eq]
theorem ports {s t : State} (h : Stored s t) : t.ports = s.ports := by rw [h.eq]
theorem tbu {s t : State} (h : Stored s t) : t.tbu = s.tbu := by rw [h.eq]
theorem ssu {s t : State} (h : Stored s t) : t.ssu = s.ssu := by rw [h.eq]
theorem due {s t : State} (h : Stored s t) : t.due = s.due := by rw [h.eq]
theorem mgmt {s t : State} (h : Stored s t) : t.mgmt = s.mgmt := by rw [h.eq]
theorem commits {s t : State} (h : Stored s t) : t.commits = s.commits := by rw [h.eq]

theorem map {s t : State} (h : Stored s t) (f : FeedId) : t.map f = s.map f := by simp only [State.map, h.maps]
theorem live {s t : State} (h : Stored s t) (f : FeedId) (e : Nat) : t.live f e = s.live f e := by simp only [State.live, h.map]
theorem feed {s t : State} (h : Stored s t) (f : FeedId) : t.feed f = s.feed f := by simp only [State.feed, h.feeds]
theorem port {s t : State} (h : Stored s t) (p : PortId) : t.port p = s.port p := by simp only [State.port, h.ports]
theorem counter {s t : State} (h : Stored s t) (c : CounterId) : t.counter c = s.counter c := by
  simp only [State.counter, h.counters]

end Stored

/-- A report joins the queue at its end or is lost (R161). -/
theorem State.handReport_reports (s : State) (r : Report) : s.mlt.reports <+: (s.handReport r).mlt.reports := by
  unfold State.handReport Mlt.enqueue
  split
  · split
    · exact List.prefix_append _ _
    · exact List.prefix_rfl
  · exact List.prefix_rfl

theorem stored_store (s : State) (st : Store) (h : st.cong = s.store.cong := by rfl) : Stored s { s with store := st } :=
  ⟨rfl, List.prefix_rfl, fun free => ⟨rfl, by rw [h]; exact free⟩⟩

theorem stored_judgeCongestion (s : State) (p : PortId) : Stored s (s.judgeCongestion p) := by
  unfold State.judgeCongestion
  split
  · next h =>
    refine ⟨?_, State.handReport_reports { s with store := { s.store with cong := upd s.store.cong p false } } _, fun free => absurd h.1 (by rw [free p]; decide)⟩
    rw [State.handReport_offered]
  · exact Stored.refl s

theorem stored_release (s : State) (f : FeedId) (slot : Nat) : Stored s (s.release f slot) := by
  unfold State.release
  split
  · exact Stored.refl s
  · split
    · split
      · exact (stored_store s _).trans (stored_judgeCongestion _ _)
      · exact stored_store s _
    · exact Stored.refl s

theorem stored_releaseAll (s : State) (f : FeedId) (slots : List Nat) : Stored s (s.releaseAll f slots) :=
  Stored.foldl _ (fun s k => stored_release s f k) slots s

theorem stored_subscribe {s t : State} {f : FeedId} {src : Source} {w : Bool} (h : s.subscribe f src w = some t) :
    Stored s t := by
  unfold State.subscribe at h
  split at h
  · cases h; exact stored_store s _
  · split at h
    · cases h; exact stored_store s _
    · cases h

theorem stored_subscribeFound (s : State) (f : FeedId) (src : Source) (w : Bool) : Stored s (s.subscribeFound f src w) := by
  unfold State.subscribeFound
  cases h : s.subscribe f src w with
  | none => exact Stored.refl s
  | some t => exact stored_subscribe h

theorem stored_withdraw (s : State) (f : FeedId) (src : Source) : Stored s (s.withdraw f src) := by
  unfold State.withdraw
  split
  · split
    · refine (stored_releaseAll s f _).trans (stored_store _ _ ?_)
      simp only [Store.leave]
      split <;> rfl
    · exact Stored.refl s
  · exact Stored.refl s

theorem stored_withdrawAll (s : State) (f : FeedId) : Stored s (s.withdrawAll f) :=
  Stored.foldl _ (fun s _ => stored_withdraw s f _) _ s

theorem stored_takeUp (s : State) (f : FeedId) (src : Source) (pre : Bool) : Stored s (s.takeUp f src pre) := by
  unfold State.takeUp
  split
  · exact stored_subscribeFound s f src false
  · simp only
    split
    · split
      · have joined := fun k => stored_store s (s.store.setStream k
          { s.store.stream k with waiting := dropFeed (s.store.stream k).waiting f })
        split
        · exact (joined _).trans (stored_releaseAll _ _ _)
        · exact joined _
      · exact Stored.refl s
    · exact stored_subscribeFound s f src false

theorem stored_trimWaiting (s : State) (k : Nat) (tick : BitVec 32) : Stored s (s.trimWaiting k tick) :=
  Stored.foldl _ (fun s f => stored_releaseAll s f _) _ s

theorem stored_endNeed (s : State) (f : FeedId) (src : Source) (rd : Bool) : Stored s (s.endNeed f src rd) := by
  unfold State.endNeed
  split
  · exact Stored.refl s
  · split
    · split
      · exact (stored_withdraw s f src).trans (stored_subscribeFound _ f src true)
      · exact Stored.refl s
    · exact stored_withdraw s f src

theorem stored_endNeedOf (s : State) (f : FeedId) (src : Option Source) (rd : Bool) : Stored s (s.endNeedOf f src rd) := by
  cases src with
  | none => exact Stored.refl s
  | some x => exact stored_endNeed s f x rd

theorem stored_endMarks (s : State) (r : SpliceRecord) (fs : List FeedId) : Stored s (s.endMarks r fs) :=
  Stored.foldl _ (fun s f => stored_endNeed s f _ false) _ s

theorem stored_noticeFeed (s : State) (src : Source) (f : FeedId) : Stored s (s.noticeFeed src f).1 := by
  unfold State.noticeFeed
  split
  · cases h : s.subscribe f src true with
    | none => exact Stored.refl s
    | some t => exact stored_subscribe h
  · exact Stored.refl s

theorem stored_noticeFeeds (src : Source) (l : List FeedId) (s : State) : Stored s (s.noticeFeeds src l).1 := by
  induction l generalizing s with
  | nil => exact Stored.refl s
  | cons f l ih => exact (stored_noticeFeed s src f).trans (ih _)

end Sys2Proof.Machine
end

section
/-! SUPPORT. The operations of the splice schedule and of source protection that count nothing (R164): what they leave alone beside
the rule of Moves. -/

namespace Sys2Proof.Machine

/-- No counter differs. -/
def Uncounted (s t : State) : Prop := t.counters = s.counters

namespace Uncounted

theorem refl (s : State) : Uncounted s s := rfl

theorem trans {s t u : State} (h : Uncounted s t) (h' : Uncounted t u) : Uncounted s u := Eq.trans h' h

theorem foldl {β : Type} (g : State → β → State) (hg : ∀ s b, Uncounted s (g s b)) (l : List β) (s : State) :
    Uncounted s (l.foldl g s) := by
  induction l generalizing s with
  | nil => exact refl s
  | cons b l ih => exact (hg s b).trans (ih _)

theorem counter {s t : State} (h : Uncounted s t) (c : CounterId) : t.counter c = s.counter c :=
  congrArg (fun x : Counters => x.live.get c.index) h

end Uncounted

theorem Stored.uncounted {s t : State} (h : Stored s t) : Uncounted s t := h.counters

theorem uncounted_setLive (s : State) (f : FeedId) (e : Nat) (v : Live) : Uncounted s (s.setLive f e v) := rfl

theorem uncounted_setRecord (s : State) (r : Nat) (x : SpliceRecord) : Uncounted s (s.setRecord r x) := rfl

theorem uncounted_setLane (s : State) (l : LaneId) (x : Lane) : Uncounted s (s.setLane l x) := rfl

theorem uncounted_walks (s : State) (l : List LaneId) : Uncounted s { s with due := { s.due with walks := l } } := rfl

theorem uncounted_handReport (s : State) (r : Report) : Uncounted s (s.handReport r) := by
  rw [State.handReport_offered]; rfl

theorem uncounted_giveNotice (s : State) (l : LaneId) (r : Nat) : Uncounted s (s.giveNotice l r) := by
  have h := (uncounted_setRecord s r { s.record r with status := .noticed }).trans
    (uncounted_handReport _ (.spliceNotice l r (s.record r).dueCycle))
  unfold State.giveNotice
  simp only
  split
  · exact (h.trans (stored_noticeFeeds _ _ _).uncounted).trans (uncounted_setRecord _ _ _)
  · exact h

theorem uncounted_beginSplice (s : State) (l : LaneId) (r : Nat) (x : SpliceRecord) (f : FeedId) (e : Nat) :
    Uncounted s (s.beginSplice l r x f e) := by
  unfold State.beginSplice
  simp only
  split
  · exact uncounted_setLive _ _ _ _
  · exact (uncounted_setLive _ _ _ _).trans (stored_subscribeFound _ _ _ _).uncounted

theorem uncounted_setShare (s : State) (f : FeedId) (e : Nat) (t : Tag) (share : Nat) : Uncounted s (s.setShare f e t share) := by
  unfold State.setShare
  simp only
  split
  · split
    · rfl
    · rfl
  · rfl

theorem uncounted_armEffect (s : State) (l : LaneId) (r : Nat) (x : SpliceRecord) (f : FeedId) (o : SpliceResult) :
    Uncounted s (s.armEffect l r x f o) := by
  unfold State.armEffect
  split
  · split
    · exact uncounted_beginSplice _ _ _ _ _ _
    · split
      · exact uncounted_setShare _ _ _ _ _
      · exact Uncounted.refl s
  · exact Uncounted.refl s

theorem uncounted_armFeed (s : State) (l : LaneId) (r : Nat) (f : FeedId) : Uncounted s (s.armFeed l r f) :=
  (uncounted_armEffect s l r _ f _).trans (uncounted_setRecord _ _ _)

theorem uncounted_arm (s : State) (l : LaneId) (r : Nat) : Uncounted s (s.arm l r) :=
  ((Uncounted.foldl _ (fun s f => uncounted_armFeed s l r f) _ s).trans (stored_endMarks _ _ _).uncounted).trans (uncounted_setRecord _ _ _)

theorem uncounted_faultLane (s : State) (l : LaneId) (r : Nat) (c : LaneCause) : Uncounted s (s.faultLane l r c) :=
  (uncounted_setLane s l _).trans (uncounted_handReport _ _)

theorem uncounted_leaveRecord (s : State) (l : LaneId) (r : Nat) : Uncounted s (s.leaveRecord l r).1 := by
  unfold State.leaveRecord
  simp only
  split
  · split
    · exact uncounted_faultLane _ _ _ _
    · exact uncounted_setLane _ _ _
  · exact uncounted_setLane _ _ _

theorem uncounted_expireRecord (s : State) (l : LaneId) (r : Nat) : Uncounted s (s.expireRecord l r).1 :=
  (((uncounted_setRecord s r _).trans (stored_endMarks _ _ _).uncounted).trans (uncounted_handReport _ _)).trans (uncounted_leaveRecord _ _ _)

theorem uncounted_armRecord (s : State) (l : LaneId) (r : Nat) : Uncounted s (s.armRecord l r).1 := by
  unfold State.armRecord
  simp only
  split
  · exact (uncounted_arm s l r).trans (uncounted_setLane _ _ _)
  · exact ((uncounted_arm s l r).trans (uncounted_handReport _ _)).trans (uncounted_leaveRecord _ _ _)

theorem uncounted_evaluateRecord (s : State) (l : LaneId) (r : Nat) : Uncounted s (s.evaluateRecord l r).1 := by
  have h := uncounted_setRecord s r { s.record r with status := .pending, outcomes := [], marks := [] }
  unfold State.evaluateRecord
  simp only
  split
  · exact h.trans (uncounted_expireRecord _ _ _)
  · split
    · exact h.trans (uncounted_armRecord _ _ _)
    · split
      · exact (h.trans (uncounted_giveNotice _ _ _)).trans (uncounted_setLane _ _ _)
      · exact h.trans (uncounted_setLane _ _ _)

theorem uncounted_reachRecord (s : State) (l : LaneId) (r : Nat) : Uncounted s (s.reachRecord l r).1 := by
  have h := uncounted_setLane s l { s.lane l with curRec := r }
  unfold State.reachRecord
  simp only
  split
  · split
    · exact h.trans (uncounted_leaveRecord _ _ _)
    · exact h.trans (uncounted_setLane _ _ _)
  · split
    · exact h.trans (uncounted_faultLane _ _ _ _)
    · exact h.trans (uncounted_evaluateRecord _ _ _)

theorem uncounted_walk (n : Nat) (l : LaneId) (r : Nat) (s : State) : Uncounted s (State.walk n l r s) := by
  induction n generalizing r s with
  | zero => exact Uncounted.refl s
  | succ n ih =>
    have h := uncounted_reachRecord s l r
    simp only [State.walk]
    split
    · next t next ht => rw [ht] at h; exact h.trans (ih _ _)
    · next t ht => rw [ht] at h; exact h

theorem uncounted_reach (s : State) (l : LaneId) (r : Nat) : Uncounted s (s.reach l r) := uncounted_walk _ l r s

theorem uncounted_leaveCompleted (s : State) (l : LaneId) (r : Nat) : Uncounted s (s.leaveCompleted l r) := by
  have h := uncounted_handReport s (.spliceOutcome l r .complete (s.record r).outcomes)
  unfold State.leaveCompleted
  simp only
  split
  · exact h.trans (uncounted_walks _ _)
  · exact h.trans (uncounted_setLane _ _ _)

theorem uncounted_setOutcomes (s : State) (r : Nat) (os : List (FeedId × SpliceResult)) : Uncounted s (s.setOutcomes r os) := by
  unfold State.setOutcomes
  simp only
  split
  · split
    · exact (uncounted_setRecord _ _ _).trans (uncounted_leaveCompleted _ _ _)
    · exact uncounted_setRecord _ _ _
  · exact uncounted_setRecord _ _ _

theorem uncounted_enterOutcome (s : State) (r : Nat) (f : FeedId) (o : SpliceResult) : Uncounted s (s.enterOutcome r f o) := by
  unfold State.enterOutcome
  split
  · exact uncounted_setOutcomes _ _ _
  · exact Uncounted.refl s

theorem uncounted_endSplice (s : State) (f : FeedId) (e : Nat) (v : Live) (o : SpliceResult) (rev : RevertResult) :
    Uncounted s (s.endSplice f e v o rev) := by
  unfold State.endSplice
  split
  · exact uncounted_enterOutcome _ _ _ _
  · exact uncounted_handReport _ _
  · exact Uncounted.refl s

theorem uncounted_walkFrom (s : State) (l : LaneId) : Uncounted s (s.walkFrom l) := (uncounted_setLane s l _).trans (uncounted_reach _ _ _)

theorem uncounted_walkLanes (s : State) : Uncounted s s.walkLanes := (uncounted_walks s []).trans (Uncounted.foldl _ uncounted_walkFrom _ _)

theorem uncounted_takeFallback (s : State) (f : FeedId) (e : Nat) (lost : Source) : Uncounted s (s.takeFallback f e lost) := by
  unfold State.takeFallback
  split
  · exact Uncounted.refl s
  · exact (((uncounted_setLive s f e _).trans (stored_endNeed _ _ _ _).uncounted).trans (stored_subscribeFound _ _ _ _).uncounted).trans
      (uncounted_handReport _ _)

theorem uncounted_reportBlocked (s : State) (f : FeedId) (e : Nat) (lost : Source) (w : BlockReason) :
    Uncounted s (s.reportBlocked f e lost w) := uncounted_handReport _ _

theorem uncounted_failOnAir (s : State) (f : FeedId) (e : Nat) (lost : Source) : Uncounted s (s.failOnAir f e lost) := by
  unfold State.failOnAir
  split
  · exact uncounted_takeFallback _ _ _ _
  · exact uncounted_reportBlocked _ _ _ _ _

theorem uncounted_loseNewSource (s : State) (f : FeedId) (e : Nat) : Uncounted s (s.loseNewSource f e) := by
  unfold State.loseNewSource
  simp only
  split
  · exact Uncounted.refl s
  · have h := (uncounted_endSplice s f e (s.live f e) .absent .absent).trans
      (uncounted_setLive _ f e (s.live f e).clearSplice)
    split
    · exact h.trans (uncounted_takeFallback _ _ _ _)
    · exact (h.trans (uncounted_setLive _ _ _ _)).trans (uncounted_reportBlocked _ _ _ _ _)

theorem uncounted_takeOutPoint (s : State) (f : FeedId) (e : Nat) : Uncounted s (s.takeOutPoint f e) := by
  unfold State.takeOutPoint
  simp only
  split
  · exact Uncounted.refl s
  · exact ((uncounted_setLive s f e _).trans (stored_endNeedOf _ _ _ _).uncounted).trans (stored_takeUp _ _ _ _).uncounted

theorem uncounted_outPoint (s : State) (f : FeedId) (e : Nat) : Uncounted s (s.outPoint f e) := by
  have h := uncounted_takeOutPoint s f e
  unfold State.outPoint
  simp only
  split
  · exact Uncounted.refl s
  · split
    · exact h
    · exact h.trans (uncounted_loseNewSource _ _ _)

theorem uncounted_revertAbsent (s : State) (f : FeedId) (e : Nat) : Uncounted s (s.revertAbsent f e) :=
  ((uncounted_setLive s f e _).trans (stored_endNeedOf _ _ _ _).uncounted).trans (uncounted_handReport _ _)

theorem uncounted_failFallback (s : State) (f : FeedId) (e : Nat) (p : PortId) : Uncounted s (s.failFallback f e p) := by
  have h : Uncounted s (if (s.live f e).protSrc.any (fun x => x.port = p) then
      s.setLive f e { s.live f e with revertLeft := none } else s) := by
    split
    · exact uncounted_setLive _ _ _ _
    · exact Uncounted.refl s
  unfold State.failFallback
  simp only
  split
  · split
    · exact h.trans (uncounted_reportBlocked _ _ _ _ _)
    · exact h
  · exact h

theorem uncounted_failOutWait (s : State) (f : FeedId) (e : Nat) (p : PortId) : Uncounted s (s.failOutWait f e p) := by
  unfold State.failOutWait
  simp only
  split
  · exact uncounted_outPoint _ _ _
  · split
    · exact uncounted_revertAbsent _ _ _
    · exact Uncounted.refl s

theorem uncounted_failEntry (p : PortId) (f : FeedId) (s : State) (e : Nat) : Uncounted s (State.failEntry p f s e) := by
  unfold State.failEntry
  simp only
  split
  · split
    · split
      · exact uncounted_failOnAir _ _ _ _
      · exact Uncounted.refl s
    · exact Uncounted.refl s
  · exact uncounted_failFallback _ _ _ _
  · exact uncounted_failOutWait _ _ _ _
  · split
    · exact uncounted_loseNewSource _ _ _
    · exact Uncounted.refl s
  · exact Uncounted.refl s

theorem uncounted_returnEntry (p : PortId) (f : FeedId) (s : State) (e : Nat) : Uncounted s (State.returnEntry p f s e) := by
  unfold State.returnEntry
  simp only
  split
  · exact uncounted_setLive _ _ _ _
  · exact Uncounted.refl s

theorem uncounted_overRunning (g : FeedId → State → Nat → State) (hg : ∀ f s e, Uncounted s (g f s e)) (s : State) :
    Uncounted s (s.overRunning g) := by
  apply Uncounted.foldl
  intro s f
  split
  · exact Uncounted.foldl _ (hg f) _ s
  · exact Uncounted.refl s

theorem uncounted_portFailed (s : State) (p : PortId) : Uncounted s (s.portFailed p) :=
  (uncounted_overRunning _ (uncounted_failEntry p) s).trans (uncounted_walkLanes _)

theorem uncounted_portReturned (s : State) (p : PortId) : Uncounted s (s.portReturned p) :=
  uncounted_overRunning _ (uncounted_returnEntry p) s

theorem uncounted_handPortChange (s : State) (p : PortId) (old : PortState) : Uncounted s (s.handPortChange p old) := by
  have h := uncounted_handReport s (.portState p old (s.port p).state)
  unfold State.handPortChange
  simp only
  split
  · exact h.trans (uncounted_portFailed _ _)
  · split
    · exact h.trans (uncounted_portReturned _ _)
    · exact h

end Sys2Proof.Machine
end

section
/-! SUPPORT. What a port does at an arrival, said once: the header check, a change of state and what is handed on, the window, and
the state in which a good unit is routed (chapter 2). -/

namespace Sys2Proof.Machine

/-! ### Writing a port (R32) -/

theorem State.setPort_setPort (s : State) (p : PortId) (q q' : Port) : (s.setPort p q).setPort p q' = s.setPort p q' := by
  simp only [State.setPort, upd_upd]

/-- A port that keeps its state hands nothing on. -/
theorem State.changePort_kept {s : State} {p : PortId} {q : Port} (h : q.state = (s.port p).state) :
    s.changePort p q = s.setPort p q := if_pos h

/-- A port that leaves LIVE fails: the report, then source protection (R32, R131, log entry 15). -/
theorem State.changePort_left {s : State} {p : PortId} {q : Port} (live : (s.port p).state = .live) (h : q.state ≠ .live) :
    s.changePort p q = ((s.setPort p q).handReport (.portState p .live q.state)).portFailed p := by
  rw [State.changePort, if_neg (by rw [live]; exact h), State.handPortChange, live, if_pos rfl, State.setPort_port]

/-- A port that enters LIVE returns (R32, R131). -/
theorem State.changePort_returned {s : State} {p : PortId} {q : Port} (h : (s.port p).state ≠ .live) (live : q.state = .live) :
    s.changePort p q = ((s.setPort p q).handReport (.portState p (s.port p).state .live)).portReturned p := by
  rw [State.changePort, if_neg (by rw [live]; exact Ne.symm h), State.handPortChange, if_neg h, State.setPort_port, if_pos live,
    live]

/-- Another change of a port is reported only (R32). -/
theorem State.changePort_reported {s : State} {p : PortId} {q : Port} (changed : q.state ≠ (s.port p).state)
    (h : (s.port p).state ≠ .live) (h' : q.state ≠ .live) :
    s.changePort p q = (s.setPort p q).handReport (.portState p (s.port p).state q.state) := by
  rw [State.changePort, if_neg changed, State.handPortChange, if_neg h, State.setPort_port, if_neg h']

/-- A change of a port leaves the other ports, the control path and the counters alone. -/
theorem State.changePort_outside (s : State) (p : PortId) (q : Port) :
    (s.changePort p q).ports = upd s.ports p q ∧ (s.changePort p q).mgmt = s.mgmt ∧
      (s.changePort p q).counters = s.counters := by
  simp only [State.changePort]
  split
  · exact ⟨rfl, rfl, rfl⟩
  · exact ⟨(moves_handPortChange _ _ _).ports, (moves_handPortChange _ _ _).mgmt, uncounted_handPortChange _ _ _⟩

/-- The return of a port changes live fields only (R137). -/
theorem State.portReturned_eq (s : State) (p : PortId) : s.portReturned p = { s with maps := (s.portReturned p).maps } := by
  have entry (f : FeedId) (t : State) (e : Nat) : State.returnEntry p f t e = { t with maps := (State.returnEntry p f t e).maps } := by
    unfold State.returnEntry
    simp only
    split <;> rfl
  have run (f : FeedId) (es : List Nat) (t : State) :
      es.foldl (State.returnEntry p f) t = { t with maps := (es.foldl (State.returnEntry p f) t).maps } := by
    induction es generalizing t with
    | nil => rfl
    | cons e es ih => rw [List.foldl_cons, ih, entry]
  unfold State.portReturned State.overRunning
  generalize allFeeds = fs
  induction fs generalizing s with
  | nil => rfl
  | cons f fs ih =>
    rw [List.foldl_cons, ih]
    split
    · rw [run]
    · rfl

/-! ### The header check (R21, R22) -/

theorem headerGood_iff (unit : List Byte) : headerGood unit = true ↔ crc8 (unit.take 3) = unit.getD 3 0 := decide_eq_true_iff

theorem Port.hunt_bad {q : Port} {unit : List Byte} (h : headerGood unit = false) :
    q.hunt unit = { q with goodRun := 0, align := unit.drop 1 } := by rw [Port.hunt, if_neg (by rw [h]; decide)]

theorem Port.hunt_good {q : Port} {unit : List Byte} (h : headerGood unit = true) (run : q.goodRun ≠ 5) :
    q.hunt unit = { q with goodRun := q.goodRun + 1, align := [] } := by
  rw [Port.hunt, if_pos h, if_neg (show ¬ q.goodRun + 1 = Config.goodHeaders from fun e => run (Nat.succ.inj e))]

theorem Port.hunt_live {q : Port} {unit : List Byte} (h : headerGood unit = true) (run : q.goodRun = 5) :
    q.hunt unit = { q.clearRuns with state := .live, align := [] } := by
  rw [Port.hunt, if_pos h, if_pos (show q.goodRun + 1 = Config.goodHeaders from congrArg (· + 1) run)]

/-! ### Arrivals (R21 to R23) -/

theorem exec_cellArrival {unit : List Byte} (whole : unit.length = 160) (p : PortId) (s : State) :
    exec (.cellArrival p unit) s = .next (s.arrive p unit) :=
  congrArg Host.Outcome.next (if_pos whole)

/-- A port with its loss deadline moved by an arrival (R30). -/
def State.moved (s : State) (p : PortId) : Port :=
  { s.port p with lossDeadline := some (s.deadline (s.port p).settings.lossTimeout) }

theorem State.arrive_down {s : State} {p : PortId} (h : (s.port p).state = .down) (unit : List Byte) : s.arrive p unit = s := by
  simp only [State.arrive, h]

theorem State.arrive_hunt {s : State} {p : PortId} (h : (s.port p).state = .hunt) (unit : List Byte) :
    s.arrive p unit = s.changePort p ((s.moved p).hunt ((s.port p).unitAt unit)) := by
  simp only [State.arrive, h, State.moved]

theorem State.arrive_lost {s : State} {p : PortId} (h : (s.port p).state = .lost) (unit : List Byte) :
    s.arrive p unit = s.changePort p (({ s.moved p with state := .hunt, goodRun := 0, align := [] } : Port).hunt unit) := by
  simp only [State.arrive, h, State.moved]

theorem State.arrive_good {s : State} {p : PortId} (h : (s.port p).state = .live ∨ (s.port p).state = .absent) {unit : List Byte}
    (good : headerGood ((s.port p).unitAt unit) = true) :
    s.arrive p unit = (s.setPort p (s.moved p)).goodUnit p ((s.port p).unitAt unit) := by
  rcases h with h | h <;> simp only [State.arrive, h, good, State.moved, if_true]

theorem State.arrive_bad {s : State} {p : PortId} (h : (s.port p).state = .live ∨ (s.port p).state = .absent) {unit : List Byte}
    (bad : headerGood ((s.port p).unitAt unit) = false) :
    s.arrive p unit = (s.setPort p (s.moved p)).badUnit p ((s.port p).unitAt unit) := by
  rcases h with h | h <;> simp only [State.arrive, h, bad, State.moved] <;> rfl

theorem exec_lossDeadlineExpiry (p : PortId) (s : State) :
    exec (.lossDeadlineExpiry p) s = .next (if s.lossReached p then s.lose p else s) := rfl

/-- A count changes the counters and hands a report at most (R164). -/
theorem State.count_eq (s : State) (c : CounterId) (n : Nat) :
    s.count c n = { s with counters := (s.count c n).counters, mlt := (s.count c n).mlt } := by
  by_cases h : min (s.counter c + n) 65535 = 65535 ∧ s.counter c < 65535 ∧ s.counters.satMark.get c.index = false
  · rw [State.count_saturates h, State.handReport_offered]
  · rw [State.count_quiet h]

/-- A bad header that does not end the alignment (R23). -/
theorem State.badUnit_run {s : State} {p : PortId} (h : (s.port p).badRun ≠ 3) (unit : List Byte) :
    s.badUnit p unit =
      (s.count (.port p .hdrErr) 1).setPort p { s.port p with badRun := (s.port p).badRun + 1, align := [] } := by
  have port : (s.count (.port p .hdrErr) 1).port p = s.port p := (moves_count s _ 1).port p
  simp only [State.badUnit, port]
  exact if_neg (show ¬ (s.port p).badRun + 1 = 4 by omega)

/-- The fourth bad header in a row (R23). -/
theorem State.badUnit_ends {s : State} {p : PortId} (h : (s.port p).badRun = 3) (unit : List Byte) :
    s.badUnit p unit =
      (s.count (.port p .hdrErr) 1).changePort p { (s.port p).clearRuns with state := .hunt, align := unit.drop 1 } := by
  have port : (s.count (.port p .hdrErr) 1).port p = s.port p := (moves_count s _ 1).port p
  simp only [State.badUnit, port]
  exact if_pos (show (s.port p).badRun + 1 = 4 by omega)

/-! ### Windows (R27 to R29) -/

theorem Port.countWindow_open {q : Port} (h : q.winCount + 1 < q.settings.winLen) (programme : Bool) :
    q.countWindow programme = { q with winCount := q.winCount + 1, winProg := q.winProg + programme.toNat } :=
  if_neg (Nat.not_le.mpr h)

theorem Port.countWindow_closes {q : Port} (h : q.settings.winLen ≤ q.winCount + 1) (programme : Bool) :
    q.countWindow programme =
      ({ q with winCount := q.winCount + 1, winProg := q.winProg + programme.toNat } : Port).closeWindow
        (q.settings.winMin ≤ q.winProg + programme.toNat) := if_pos h

theorem Port.countWindow_live_full {q : Port} {pr : Bool} (ends : q.settings.winLen ≤ q.winCount + 1)
    (full : q.settings.winMin ≤ q.winProg + pr.toNat) (live : q.state = .live) :
    q.countWindow pr = { q with winCount := 0, winProg := 0, thinRun := 0 } := by
  rw [Port.countWindow_closes ends, decide_eq_true full]
  simp only [Port.closeWindow, live]

theorem Port.countWindow_live_thin {q : Port} {pr : Bool} (ends : q.settings.winLen ≤ q.winCount + 1)
    (thin : ¬ q.settings.winMin ≤ q.winProg + pr.toNat) (live : q.state = .live) (run : q.thinRun ≠ 1) :
    q.countWindow pr = { q with winCount := 0, winProg := 0, thinRun := q.thinRun + 1 } := by
  rw [Port.countWindow_closes ends, decide_eq_false thin]
  simp only [Port.closeWindow, live, if_neg (show ¬ q.thinRun + 1 = 2 by omega)]

theorem Port.countWindow_live_ends {q : Port} {pr : Bool} (ends : q.settings.winLen ≤ q.winCount + 1)
    (thin : ¬ q.settings.winMin ≤ q.winProg + pr.toNat) (live : q.state = .live) (run : q.thinRun = 1) :
    q.countWindow pr = { q with winCount := 0, winProg := 0, state := .absent, thinRun := 0, fullRun := 0 } := by
  rw [Port.countWindow_closes ends, decide_eq_false thin]
  simp only [Port.closeWindow, live, if_pos (show q.thinRun + 1 = 2 by omega)]

theorem Port.countWindow_absent_thin {q : Port} {pr : Bool} (ends : q.settings.winLen ≤ q.winCount + 1)
    (thin : ¬ q.settings.winMin ≤ q.winProg + pr.toNat) (absent : q.state = .absent) :
    q.countWindow pr = { q with winCount := 0, winProg := 0, fullRun := 0 } := by
  rw [Port.countWindow_closes ends, decide_eq_false thin]
  simp only [Port.closeWindow, absent]

theorem Port.countWindow_absent_full {q : Port} {pr : Bool} (ends : q.settings.winLen ≤ q.winCount + 1)
    (full : q.settings.winMin ≤ q.winProg + pr.toNat) (absent : q.state = .absent) (run : q.fullRun ≠ 1) :
    q.countWindow pr = { q with winCount := 0, winProg := 0, fullRun := q.fullRun + 1 } := by
  rw [Port.countWindow_closes ends, decide_eq_true full]
  simp only [Port.closeWindow, absent, if_neg (show ¬ q.fullRun + 1 = 2 by omega)]

theorem Port.countWindow_absent_ends {q : Port} {pr : Bool} (ends : q.settings.winLen ≤ q.winCount + 1)
    (full : q.settings.winMin ≤ q.winProg + pr.toNat) (absent : q.state = .absent) (run : q.fullRun = 1) :
    q.countWindow pr = { q with winCount := 0, winProg := 0, state := .live, thinRun := 0, fullRun := 0 } := by
  rw [Port.countWindow_closes ends, decide_eq_true full]
  simp only [Port.closeWindow, absent, if_pos (show q.fullRun + 1 = 2 by omega)]

/-! ### Good units (R23 to R27, R34) -/

/-- A port that a good unit has come to: the deadline moved, BadRun cleared, the alignment kept whole. -/
def State.heardPort (s : State) (p : PortId) : Port := { s.moved p with badRun := 0, align := [] }

/-- The state in which a good unit is routed. -/
def State.heard (s : State) (p : PortId) : State := s.setPort p (s.heardPort p)

/-- The state in which a good unit is counted in its window. -/
def State.routed (s : State) (p : PortId) (unit : List Byte) : State :=
  if kindTagAgree (unitHeader unit) then (s.heard p).route p (unitHeader unit) (unit.drop 4) else s.heard p

/-- A good unit that completes at a whole alignment. -/
theorem exec_goodArrival {s : State} {p : PortId} {unit : List Byte} (whole : unit.length = 160) (aligned : (s.port p).align = [])
    (on : (s.port p).state = .live ∨ (s.port p).state = .absent) (good : crc8 (unit.take 3) = unit.getD 3 0) :
    exec (.cellArrival p unit) s =
      .next (((s.routed p unit).changePort p
        (((s.routed p unit).port p).countWindow (countsAsProgramme (unitHeader unit)))).handOver p (unitHeader unit)
          (unit.drop 4)) := by
  have here : (s.port p).unitAt unit = unit := if_pos aligned
  rw [exec_cellArrival whole, State.arrive_good on (by rw [here]; exact (headerGood_iff unit).mpr good), here, State.goodUnit]
  simp only [State.setPort_port, State.setPort_setPort]
  rfl

/-- A cell that is not CONTROL on CP0 hands nothing to the control receiver. -/
theorem State.handOver_none {s : State} {p : PortId} {h : Header} (other : h.kind ≠ .control ∨ kindTagAgree h = false ∨ p ≠ 0)
    (payload : List Byte) : s.handOver p h payload = s := by
  refine if_neg ?_
  rintro ⟨control, agree, rfl⟩
  rcases other with h | h | h
  · exact h control
  · rw [h] at agree; exact Bool.false_ne_true agree
  · exact h rfl

theorem State.heard_port (s : State) (p : PortId) : (s.heard p).port p = s.heardPort p := s.setPort_port p _

/-- Kinds that a port routes nowhere: the cell changes nothing before its window (R24 to R26). -/
theorem State.routed_nowhere {s : State} {p : PortId} {unit : List Byte}
    (nowhere : (unitHeader unit).kind = .fill ∨ kindTagAgree (unitHeader unit) = false ∨
      ((unitHeader unit).kind ≠ .programme ∧ p ≠ 0)) : s.routed p unit = s.heard p := by
  unfold State.routed
  split
  · next agree =>
    rcases nowhere with fill | disagree | ⟨other, regional⟩
    · simp only [State.route, fill]
    · rw [agree] at disagree; exact absurd disagree.symm Bool.false_ne_true
    · unfold State.route
      cases kind : (unitHeader unit).kind with
      | programme => exact absurd kind other
      | address => exact if_neg regional
      | fill => rfl
      | control => rfl
  · rfl

theorem countsAsProgramme_nowhere {h : Header} {p : PortId}
    (nowhere : h.kind = .fill ∨ kindTagAgree h = false ∨ (h.kind ≠ .programme ∧ p ≠ 0)) : countsAsProgramme h = false := by
  rcases nowhere with fill | disagree | ⟨other, -⟩
  · simp [countsAsProgramme, fill]
  · simp [countsAsProgramme, disagree]
  · simp [countsAsProgramme, other]

/-- A good unit that is routed nowhere is counted in its window. -/
theorem exec_nowhereArrival {s : State} {p : PortId} {unit : List Byte} (whole : unit.length = 160) (aligned : (s.port p).align = [])
    (on : (s.port p).state = .live ∨ (s.port p).state = .absent) (good : crc8 (unit.take 3) = unit.getD 3 0)
    (nowhere : (unitHeader unit).kind = .fill ∨ kindTagAgree (unitHeader unit) = false ∨
      ((unitHeader unit).kind ≠ .programme ∧ p ≠ 0)) :
    exec (.cellArrival p unit) s =
      .next ((s.heard p).changePort p ((s.heardPort p).countWindow false)) := by
  have other : (unitHeader unit).kind ≠ .control ∨ kindTagAgree (unitHeader unit) = false ∨ p ≠ 0 := by
    rcases nowhere with fill | disagree | ⟨-, regional⟩
    · exact .inl (by rw [fill]; decide)
    · exact .inr (.inl disagree)
    · exact .inr (.inr regional)
  rw [exec_goodArrival whole aligned on good, State.handOver_none other, State.routed_nowhere nowhere,
    countsAsProgramme_nowhere nowhere, State.heard_port]

/-- A good unit that leaves its window open and hands no request on. -/
theorem exec_goodArrival_open {s : State} {p : PortId} {unit : List Byte} (whole : unit.length = 160)
    (aligned : (s.port p).align = []) (on : (s.port p).state = .live ∨ (s.port p).state = .absent)
    (good : crc8 (unit.take 3) = unit.getD 3 0)
    (other : (unitHeader unit).kind ≠ .control ∨ kindTagAgree (unitHeader unit) = false ∨ p ≠ 0)
    (remains : ((s.routed p unit).port p).winCount + 1 < ((s.routed p unit).port p).settings.winLen) :
    exec (.cellArrival p unit) s =
      .next ((s.routed p unit).setPort p
        { (s.routed p unit).port p with
          winCount := ((s.routed p unit).port p).winCount + 1
          winProg := ((s.routed p unit).port p).winProg + (countsAsProgramme (unitHeader unit)).toNat }) := by
  rw [exec_goodArrival whole aligned on good, State.handOver_none other, Port.countWindow_open remains]
  exact congrArg Host.Outcome.next (State.changePort_kept rfl)

end Sys2Proof.Machine
end

section
/-! PROOFS. The statements on delineation, windows and the loss deadline. -/

namespace Sys2Proof.Machine

/-- Settles O17: the arrival by the state of its port. -/
theorem delineationFindsAndLosesAlignment : Obligations.DelineationFindsAndLosesAlignment := by
  unfold Obligations.DelineationFindsAndLosesAlignment
  refine ⟨fun s p unit whole => ?_, fun s p unit whole on bad => ?_⟩
  · rw [exec_cellArrival whole]
    have checked (good : Bool) (h : headerGood (if (s.port p).align = [] then unit else (s.port p).align ++ [unit.getD 159 0]) = good) :
        headerGood ((s.port p).unitAt unit) = good := h
    refine ⟨fun down => ?_, fun hunt good run => ?_, fun hunt good run => ?_, fun hunt bad => ?_, fun lost => ?_⟩
    · rw [State.arrive_down down]
    · rw [State.arrive_hunt hunt, Port.hunt_good (q := s.moved p) (checked true (decide_eq_true good)) run]
      exact congrArg Host.Outcome.next (State.changePort_kept rfl)
    · rw [State.arrive_hunt hunt, Port.hunt_live (q := s.moved p) (checked true (decide_eq_true good)) run,
        State.changePort_returned (by rw [hunt]; decide) rfl, State.portReturned_eq, State.handReport_offered]
      refine ⟨_, rfl, rfl, rfl, rfl, rfl, ?_⟩
      rw [hunt, State.handReport_offered]
      rfl
    · rw [State.arrive_hunt hunt, Port.hunt_bad (checked false (decide_eq_false bad))]
      exact congrArg Host.Outcome.next (State.changePort_kept rfl)
    · rw [State.arrive_lost lost]
      have old : (s.port p).state ≠ .live := by rw [lost]; decide
      have changed : PortState.hunt ≠ (s.port p).state := by rw [lost]; decide
      have new : PortState.hunt ≠ .live := by decide
      by_cases good : crc8 (unit.take 3) = unit.getD 3 0
      · rw [Port.hunt_good (decide_eq_true good) (show (0 : Nat) ≠ 5 by decide), if_pos good, if_pos good,
          State.changePort_reported changed old new, lost]
        rfl
      · rw [Port.hunt_bad (decide_eq_false good), if_neg good, if_neg good, State.changePort_reported changed old new, lost]
        rfl
  · rw [exec_cellArrival whole, State.arrive_bad on (decide_eq_false bad)]
    have counted := (s.setPort p (s.moved p)).count_counter (.port p .hdrErr) 1
    have stays := (s.setPort p (s.moved p)).count_eq (.port p .hdrErr) 1
    by_cases run : (s.port p).badRun = 3
    · rw [State.badUnit_ends (by rw [State.setPort_port]; exact run), State.setPort_port]
      obtain ⟨ports, mgmt, counters⟩ := State.changePort_outside ((s.setPort p (s.moved p)).count (.port p .hdrErr) 1) p
        { (s.moved p).clearRuns with state := .hunt, align := ((s.port p).unitAt unit).drop 1 }
      refine ⟨_, rfl, ?_, fun h => absurd run h, fun _ => ⟨?_, ?_⟩⟩
      · rw [State.counter, counters]
        exact counted
      · rw [ports, stays]
        exact upd_upd _ _ _ _
      · rw [mgmt, stays]
        rfl
    · rw [State.badUnit_run (by rw [State.setPort_port]; exact run), State.setPort_port]
      refine ⟨_, rfl, counted, fun _ => ?_, fun h => absurd h run⟩
      rw [stays]
      exact ⟨upd_upd _ _ _ _, rfl, rfl, rfl, rfl⟩

/-- Settles O18: the window of a cell that is routed nowhere, by the state of its port. -/
theorem windowsJudgeContribution : Obligations.WindowsJudgeContribution := by
  unfold Obligations.WindowsJudgeContribution
  intro s p unit whole aligned good nowhere
  have arrives (on : (s.port p).state = .live ∨ (s.port p).state = .absent) :=
    exec_nowhereArrival whole aligned on good nowhere
  have state : ((s.heard p).port p).state = (s.port p).state := by rw [State.heard_port]; rfl
  have kept {q : Port} (h : q.state = (s.port p).state) : (s.heard p).changePort p q = s.setPort p q :=
    (State.changePort_kept (h.trans state.symm)).trans (s.setPort_setPort p _ q)
  refine ⟨fun on remains => ?_, fun live ends full => ?_, fun live ends thin run => ?_, fun live ends thin run => ?_,
    fun absent ends thin => ?_, fun absent ends full run => ?_, fun absent ends full run => ?_⟩
  · rw [arrives on, Port.countWindow_open (q := s.heardPort p) (Nat.not_le.mp remains)]
    exact congrArg Host.Outcome.next (kept rfl)
  · rw [arrives (.inl live), Port.countWindow_live_full (q := s.heardPort p) (pr := false) ends full live]
    exact congrArg Host.Outcome.next (kept rfl)
  · rw [arrives (.inl live), Port.countWindow_live_thin (q := s.heardPort p) (pr := false) ends thin live run]
    exact congrArg Host.Outcome.next (kept rfl)
  · rw [arrives (.inl live), Port.countWindow_live_ends (q := s.heardPort p) (pr := false) ends thin live run,
      State.changePort_left (state.trans live) PortState.noConfusion, State.heard, State.setPort_setPort]
    rfl
  · rw [arrives (.inr absent), Port.countWindow_absent_thin (q := s.heardPort p) (pr := false) ends thin absent]
    exact congrArg Host.Outcome.next (kept rfl)
  · rw [arrives (.inr absent), Port.countWindow_absent_full (q := s.heardPort p) (pr := false) ends full absent run]
    exact congrArg Host.Outcome.next (kept rfl)
  · rw [arrives (.inr absent), Port.countWindow_absent_ends (q := s.heardPort p) (pr := false) ends full absent run,
      State.changePort_returned (by rw [state, absent]; decide) rfl, state, absent, State.heard, State.setPort_setPort]
    rfl

/-- Settles O22: the loss deadline by the state of the port. -/
theorem lossDeadlineMakesPortLost : Obligations.LossDeadlineMakesPortLost := by
  unfold Obligations.LossDeadlineMakesPortLost
  intro s p
  refine ⟨fun reached other => ?_, fun reached live => ?_, fun none => ?_⟩
  · have lost : s.lossReached p = true := by rcases other with h | h <;> simp [State.lossReached, reached, h, PortState.timed]
    rw [exec_lossDeadlineExpiry, if_pos lost, State.lose]
    rcases other with h | h <;>
      rw [State.changePort_reported (by rw [h]; exact PortState.noConfusion) (by rw [h]; decide) PortState.noConfusion] <;> rfl
  · have lost : s.lossReached p = true := by simp [State.lossReached, reached, live, PortState.timed]
    rw [exec_lossDeadlineExpiry, if_pos lost, State.lose, State.changePort_left live PortState.noConfusion]
    rfl
  · have kept : ¬ s.lossReached p = true := by
      rcases none with h | h | h <;> simp [State.lossReached, h, PortState.timed]
    rw [exec_lossDeadlineExpiry, if_neg kept]

end Sys2Proof.Machine
end

section
/-! SUPPORT. What the store does with a programme cell, said once: writes of stream records, the release of a cell, an arrival that is
stored and an overflow (chapter 3). -/

namespace Sys2Proof.Machine

/-! ### Stream records -/

/-- A record that is not the blank one reads back, whatever the table. -/
theorem Store.setStream_stream_used (st : Store) (k : Nat) {r : StreamRecord} (h : r ≠ StreamRecord.unused) :
    (st.setStream k r).stream k = r := by
  rw [Store.setStream, Store.stream, Table.set, if_neg h, Table.get, Table.find_put_same]
  rfl

theorem StreamRecord.ne_unused_of_nextCont {r : StreamRecord} {c : BitVec 4} (h : r.nextCont = some c) : r ≠ StreamRecord.unused := by
  rintro rfl; cases h

theorem StreamRecord.ne_unused_of_tail {r : StreamRecord} {k : Nat} (h : r.tail = some k) : r ≠ StreamRecord.unused := by
  rintro rfl; cases h

/-! ### Congestion and release (R50 to R52) -/

theorem State.judgeCongestion_store (s : State) (p : PortId) :
    (s.judgeCongestion p).store = { s.store with cong := (s.judgeCongestion p).store.cong } := by
  unfold State.judgeCongestion
  split
  · rw [State.handReport_offered]
  · rfl

theorem State.judgeCongestion_cell (s : State) (p : PortId) (i : Nat) : (s.judgeCongestion p).store.cell i = s.store.cell i := by
  rw [State.judgeCongestion_store]; rfl

theorem State.judgeCongestion_stream (s : State) (p : PortId) (k : Nat) :
    (s.judgeCongestion p).store.stream k = s.store.stream k := by
  rw [State.judgeCongestion_store]; rfl

/-- A release leaves every other slot alone (R52). -/
theorem State.release_cell_other (s : State) (f : FeedId) {slot i : Nat} (h : slot ≠ i) :
    (s.release f slot).store.cell i = s.store.cell i := by
  unfold State.release
  split
  · rfl
  · split
    · split
      · rw [State.judgeCongestion_cell]
        exact Table.find_erase_other _ h
      · exact Table.find_put_other _ _ h
    · rfl

/-- A release leaves the continuity history of every stream alone (R49, R52). -/
theorem State.release_nextCont {s : State} {k : Nat} {n : BitVec 4} (h : (s.store.stream k).nextCont = some n) (f : FeedId)
    (slot : Nat) : ((s.release f slot).store.stream k).nextCont = some n := by
  unfold State.release
  split
  · exact h
  · next c _ =>
    split
    · split
      · rw [State.judgeCongestion_stream]
        by_cases hk : c.stream = k
        · subst hk
          have used : ({ s.store.stream c.stream with
              head := c.next, tail := if c.next.isSome then (s.store.stream c.stream).tail else none,
              count := (s.store.stream c.stream).count - 1 } : StreamRecord) ≠ StreamRecord.unused :=
            StreamRecord.ne_unused_of_nextCont h
          exact (congrArg StreamRecord.nextCont (Store.setStream_stream_used _ _ used)).trans h
        · exact (congrArg StreamRecord.nextCont (Store.setStream_stream_other _ _ hk)).trans h
      · exact h
    · exact h

/-! ### The waiting-age trim (R53) -/

/-- A cell that has just arrived stands in a slot, and the continuity of its stream is known. -/
def Store.Fresh (st : Store) (slot k : Nat) (c : CellRecord) (n : BitVec 4) : Prop :=
  st.cell slot = some c ∧ (st.stream k).nextCont = some n

/-- Releasing other slots leaves a fresh cell in its place. -/
theorem State.releaseAll_fresh {s : State} {slot k : Nat} {c : CellRecord} {n : BitVec 4} (h : s.store.Fresh slot k c n)
    (f : FeedId) {slots : List Nat} (others : slot ∉ slots) : (s.releaseAll f slots).store.Fresh slot k c n := by
  induction slots generalizing s with
  | nil => exact h
  | cons i slots ih =>
    obtain ⟨ne, others⟩ := not_or.mp (fun h => others (List.mem_cons.mpr h))
    obtain ⟨cell, cont⟩ := h
    exact ih ⟨(s.release_cell_other f (Ne.symm ne)).trans cell, State.release_nextCont cont f i⟩ others

/-- The trim releases cells older than MaxAge, and a fresh cell has no age. -/
theorem State.trimFeed_fresh {s : State} {slot k : Nat} {c : CellRecord} {n : BitVec 4} (h : s.store.Fresh slot k c n)
    (f : FeedId) (src : Source) (maxAge : Nat) : (s.trimFeed f src c.arriveTick maxAge).store.Fresh slot k c n := by
  refine State.releaseAll_fresh h f fun mem => ?_
  have old := of_decide_eq_true (List.mem_takeWhile_imp (p := fun k => decide (maxAge < s.store.age k c.arriveTick)) mem)
  have age : s.store.age slot c.arriveTick = 0 := by simp [Store.age, h.1]
  omega

theorem State.trimWaiting_fresh {s : State} {slot k : Nat} {c : CellRecord} {n : BitVec 4} (h : s.store.Fresh slot k c n) :
    (s.trimWaiting k c.arriveTick).store.Fresh slot k c n := by
  unfold State.trimWaiting
  simp only
  generalize feedList (s.store.stream k).waiting = fs, (s.store.stream k).src = src
  have (t : State) (ht : t.store.Fresh slot k c n) :
      (fs.foldl (fun u f => u.trimFeed f src c.arriveTick (s.port src.port).settings.maxAge) t).store.Fresh slot k c n := by
    induction fs generalizing t with
    | nil => exact ht
    | cons f fs ih => exact ih _ (State.trimFeed_fresh ht f src _)
  exact this s h

/-- A stream that no feed waits for is not trimmed. -/
theorem State.trimWaiting_none {s : State} {k : Nat} (h : (s.store.stream k).waiting = 0) (tick : BitVec 32) :
    s.trimWaiting k tick = s := by
  have none : feedList 0 = [] := by decide
  simp only [State.trimWaiting, h, none, List.foldl_nil]

/-! ### A stored arrival (R46 to R49) -/

/-- The cell record of an arrival (R47). -/
def Store.arrived (st : Store) (k : Nat) (p : PortId) (hdr : Header) (payload : List Byte) (tick : BitVec 32) : CellRecord :=
  { hdr := hdr, payload := payload, arriveTick := tick, port := p, stream := k, next := none, holders := (st.stream k).subs }

/-- The record of the stream of an arrival, linked at its tail (R47). -/
def StreamRecord.linked (r : StreamRecord) (slot : Nat) : StreamRecord :=
  { r with head := if r.tail.isSome then r.head else some slot, tail := some slot, count := r.count + 1 }

theorem Store.put_cell_same (st : Store) (slot : Nat) (pool : FreePool) (k : Nat) (p : PortId) (hdr : Header)
    (payload : List Byte) (tick : BitVec 32) :
    (st.put slot pool k p hdr payload tick).cell slot = some (st.arrived k p hdr payload tick) :=
  Table.find_put_same _ _ _

theorem Store.put_stream_same (st : Store) (slot : Nat) (pool : FreePool) (k : Nat) (p : PortId) (hdr : Header)
    (payload : List Byte) (tick : BitVec 32) :
    (st.put slot pool k p hdr payload tick).stream k = (st.stream k).linked slot :=
  Store.setStream_stream_used _ k (StreamRecord.ne_unused_of_tail (k := slot) rfl)

theorem Store.put_stream_other (st : Store) (slot : Nat) (pool : FreePool) {k j : Nat} (p : PortId) (hdr : Header)
    (payload : List Byte) (tick : BitVec 32) (h : k ≠ j) : (st.put slot pool k p hdr payload tick).stream j = st.stream j :=
  Store.setStream_stream_other _ _ h

/-- Storing links the cell before it, and leaves every other slot alone (R47). -/
theorem Store.put_cell_other (st : Store) {slot j : Nat} (pool : FreePool) (k : Nat) (p : PortId) (hdr : Header)
    (payload : List Byte) (tick : BitVec 32) (h : slot ≠ j) :
    (st.put slot pool k p hdr payload tick).cell j =
      (st.cell j).map (fun c => if (st.stream k).tail = some j then { c with next := some slot } else c) := by
  refine (Table.find_put_other _ _ h).trans ?_
  cases tail : (st.stream k).tail with
  | none => simp [Store.cell]
  | some old =>
    by_cases hj : old = j
    · subst hj
      simp only [if_pos]
      cases cell : st.cell old with
      | none => exact cell
      | some c => exact Table.find_put_same _ _ _
    · simp only [Option.some.injEq, if_neg hj, Option.map_id']
      cases cell : st.cell old with
      | none => rfl
      | some c => exact Table.find_put_other _ _ hj

/-- The continuity of an arrival is judged against the record as it stood, and NextCont follows the cell (R49). -/
theorem State.judgeContinuity_store (s : State) (p : PortId) (k : Nat) (cont : BitVec 4) :
    (s.judgeContinuity p k cont).store = s.store.setStream k { s.store.stream k with nextCont := some (cont + 1) } := by
  unfold State.judgeContinuity
  simp only
  split
  · rw [State.count_eq]
  · rfl

theorem State.judgeContinuity_counter (s : State) (p : PortId) (k : Nat) (cont : BitVec 4) :
    (s.judgeContinuity p k cont).counter (.port p .contErr) =
      if (s.store.stream k).nextCont = none ∨ (s.store.stream k).nextCont = some cont then s.counter (.port p .contErr)
      else min (s.counter (.port p .contErr) + 1) 65535 := by
  unfold State.judgeContinuity
  simp only
  cases known : (s.store.stream k).nextCont with
  | none => rfl
  | some n =>
    by_cases same : n = cont
    · subst same
      rw [if_neg (fun h => h.2 rfl), if_pos (.inr rfl)]
      rfl
    · have broken : some n ≠ some cont := fun h => same (Option.some.inj h)
      rw [if_pos ⟨rfl, broken⟩, if_neg (not_or.mpr ⟨Option.some_ne_none n, broken⟩), State.count_counter]
      rfl

/-- What an arrival leaves when it finds a slot and room (R46). -/
theorem State.offerCell_stored {s : State} {p : PortId} {hdr : Header} {k slot : Nat} {pool : FreePool}
    (opened : s.store.openAt { port := p, tag := hdr.tag } = some k) (free : s.store.pool.pop = some (slot, pool))
    (room : s.store.occ.get p < (s.port p).settings.quota) (payload : List Byte) :
    s.offerCell p hdr payload =
      ((({ s with store := s.store.put slot pool k p hdr payload s.stamp } : State).judgeContinuity p k hdr.cont).judgeCongestion
        p).trimWaiting k s.stamp := by
  simp only [State.offerCell, opened, free, if_pos room]

theorem State.offerCell_unmatched {s : State} {p : PortId} {hdr : Header}
    (closed : s.store.openAt { port := p, tag := hdr.tag } = none) (payload : List Byte) : s.offerCell p hdr payload = s := by
  simp only [State.offerCell, closed]

theorem State.offerCell_overflow {s : State} {p : PortId} {hdr : Header} {k : Nat}
    (opened : s.store.openAt { port := p, tag := hdr.tag } = some k)
    (full : (s.port p).settings.quota ≤ s.store.occ.get p ∨ s.store.pool.pop = none) (payload : List Byte) :
    s.offerCell p hdr payload = s.overflow p k hdr.cont := by
  simp only [State.offerCell, opened]
  cases free : s.store.pool.pop with
  | none => rfl
  | some x =>
    rcases full with full | empty
    · exact if_neg (Nat.not_lt.mpr full)
    · rw [empty] at free; cases free

/-- Cong of the port is set, and entry into congestion reported at most (R50). -/
theorem State.setCongestion_eq (s : State) (p : PortId) :
    s.setCongestion p =
      { s with store := { s.store with cong := upd s.store.cong p true }, mlt := (s.setCongestion p).mlt } := by
  unfold State.setCongestion
  split
  · next h =>
    have same : upd s.store.cong p true = s.store.cong := by rw [← h, upd_get_self]
    rw [same]
  · rw [State.handReport_offered]

/-- An overflow: NextCont follows the cell, the port is congested, OVERFLOW rises, and nothing else is touched but the reports
(R48). -/
theorem State.overflow_eq (s : State) (p : PortId) (k : Nat) (cont : BitVec 4) :
    s.overflow p k cont =
      { s with
        store :=
          { s.store.setStream k { s.store.stream k with nextCont := some (cont + 1) } with cong := upd s.store.cong p true }
        counters := (s.count (.port p .overflow) 1).counters
        mlt := (s.overflow p k cont).mlt } := by
  let followed : State := { s with store := s.store.setStream k { s.store.stream k with nextCont := some (cont + 1) } }
  have counters : (followed.count (.port p .overflow) 1).counters = (s.count (.port p .overflow) 1).counters := by
    by_cases h : min (s.counter (.port p .overflow) + 1) 65535 = 65535 ∧ s.counter (.port p .overflow) < 65535 ∧
        s.counters.satMark.get (CounterId.port p .overflow).index = false
    · rw [State.count_saturates h, State.count_saturates (s := followed) h]; rfl
    · rw [State.count_quiet h, State.count_quiet (s := followed) h]; rfl
  obtain ⟨cs, m, counted⟩ : ∃ cs m, followed.count (.port p .overflow) 1 = { followed with counters := cs, mlt := m } :=
    ⟨_, _, State.count_eq followed _ 1⟩
  rw [counted] at counters
  rw [State.overflow, ← counters, show State.count _ _ _ = _ from counted, State.setCongestion_eq]
  rfl

/-! ### Programme cells at a port (R24, R25) -/

theorem kindTagAgree_programme {h : Header} (kind : h.kind = .programme) (tag : h.tag.toNat ≤ 4093) : kindTagAgree h = true := by
  rw [kindTagAgree, kind]
  exact decide_eq_true tag

theorem State.routed_programme {s : State} {p : PortId} {unit : List Byte} (kind : (unitHeader unit).kind = .programme)
    (tag : (unitHeader unit).tag.toNat ≤ 4093) (other : (s.port p).settings.checkTag ≠ some (unitHeader unit).tag) :
    s.routed p unit = (s.heard p).offerCell p (unitHeader unit) (unit.drop 4) := by
  rw [State.routed, if_pos (kindTagAgree_programme kind tag), State.route, kind, State.heard_port]
  exact if_neg other

theorem State.routed_checked {s : State} {p : PortId} {unit : List Byte} (kind : (unitHeader unit).kind = .programme)
    (tag : (unitHeader unit).tag.toNat ≤ 4093) (checked : (s.port p).settings.checkTag = some (unitHeader unit).tag) :
    s.routed p unit = (s.heard p).checkCell p (unit.drop 4) := by
  rw [State.routed, if_pos (kindTagAgree_programme kind tag), State.route, kind, State.heard_port]
  exact if_pos checked

/-- A programme cell that leaves its window open. -/
theorem exec_programmeArrival {s : State} {p : PortId} {unit : List Byte} (whole : unit.length = 160)
    (aligned : (s.port p).align = []) (on : (s.port p).state = .live ∨ (s.port p).state = .absent)
    (good : crc8 (unit.take 3) = unit.getD 3 0) (kind : (unitHeader unit).kind = .programme)
    (tag : (unitHeader unit).tag.toNat ≤ 4093)
    (remains : ((s.routed p unit).port p).winCount + 1 < ((s.routed p unit).port p).settings.winLen) :
    exec (.cellArrival p unit) s =
      .next ((s.routed p unit).setPort p
        { (s.routed p unit).port p with
          winCount := ((s.routed p unit).port p).winCount + 1, winProg := ((s.routed p unit).port p).winProg + 1 }) := by
  have counts : countsAsProgramme (unitHeader unit) = true := by
    rw [countsAsProgramme, kind, kindTagAgree_programme kind tag]; rfl
  rw [exec_goodArrival_open whole aligned on good (.inl (by rw [kind]; decide)) remains, counts]
  rfl

end Sys2Proof.Machine
end

section
/-! PROOFS. The statements on programme cells that are stored, unmatched or overflowing. -/

namespace Sys2Proof.Machine

/-- Settles O20: the cell is put, its continuity judged, and the trim leaves it alone. -/
theorem programmeCellStored : Obligations.ProgrammeCellStored := by
  unfold Obligations.ProgrammeCellStored
  intro s p unit k slot pool whole aligned on remains good kind tag other opened free room sound
  have routed := (State.routed_programme kind tag other).trans
    (State.offerCell_stored (s := s.heard p) (hdr := unitHeader unit) opened free
      (by rw [State.heard_port]; exact room) (unit.drop 4))
  have port : (s.routed p unit).port p = s.heardPort p := by
    rw [State.routed_programme kind tag other, (moves_offerCell _ _ _ _).port, State.heard_port]
  have arrives := exec_programmeArrival whole aligned on good kind tag (by rw [port]; exact remains)
  have vacant : s.store.cell slot = none := by
    obtain ⟨-, mem, -⟩ := sound
    exact ((mem slot).mp (by rw [FreePool.stack_of_pop free]; exact List.mem_cons_self)).2
  let put : State := { s.heard p with
    store := s.store.put slot pool k p (unitHeader unit) (unit.drop 4) s.stamp }
  let judged : State := (put.judgeContinuity p k (unitHeader unit).cont).judgeCongestion p
  have stored : judged.store =
      { (s.store.put slot pool k p (unitHeader unit) (unit.drop 4) s.stamp).setStream k
          { (s.store.stream k).linked slot with nextCont := some ((unitHeader unit).cont + 1) } with
        cong := judged.store.cong } := by
    have linked := s.store.put_stream_same slot pool k p (unitHeader unit) (unit.drop 4) s.stamp
    refine (State.judgeCongestion_store _ p).trans ?_
    rw [State.judgeContinuity_store]
    simp only [put, linked]
    rfl
  have stream : judged.store.stream k =
      { (s.store.stream k).linked slot with nextCont := some ((unitHeader unit).cont + 1) } := by
    rw [stored]
    exact Store.setStream_stream_used _ k (StreamRecord.ne_unused_of_tail (k := slot) rfl)
  have fresh : judged.store.Fresh slot k (s.store.arrived k p (unitHeader unit) (unit.drop 4) s.stamp)
      ((unitHeader unit).cont + 1) := by
    refine ⟨?_, by rw [stream]⟩
    rw [stored]
    exact s.store.put_cell_same slot pool k p (unitHeader unit) (unit.drop 4) s.stamp
  obtain ⟨t, arrives, store, counters⟩ : ∃ t, exec (.cellArrival p unit) s = .next t ∧
      t.store = (judged.trimWaiting k s.stamp).store ∧ t.counters = (judged.trimWaiting k s.stamp).counters := by
    rw [routed] at arrives
    exact ⟨_, arrives, rfl, rfl⟩
  obtain ⟨cell, cont⟩ := State.trimWaiting_fresh fresh
  refine ⟨t, arrives, by rw [store]; exact cell, by rw [store]; exact cont, ?_, fun none => ?_⟩
  · have counted := put.judgeContinuity_counter p k (unitHeader unit).cont
    have linked := s.store.put_stream_same slot pool k p (unitHeader unit) (unit.drop 4) s.stamp
    have after := ((stored_judgeCongestion (put.judgeContinuity p k (unitHeader unit).cont) p).trans
      (stored_trimWaiting _ k s.stamp)).counter (.port p .contErr)
    rw [State.counter, counters]
    refine after.trans (counted.trans ?_)
    simp only [put, linked]
    rfl
  · have still : judged.trimWaiting k s.stamp = judged := State.trimWaiting_none (by rw [stream]; exact none) s.stamp
    rw [still] at store
    refine ⟨by rw [store, stored]; rfl, ?_, ?_, fun j hj => ?_, fun j hj => ?_, fun o ho => ?_⟩
    · rw [store, stored]
      exact upd_get_same _ _ _
    · rw [store, stream, StreamRecord.linked]
      cases (s.store.stream k).tail <;> rfl
    · rw [store, stored]
      exact (Store.setStream_stream_other _ _ (Ne.symm hj)).trans (s.store.put_stream_other slot pool p _ _ _ (Ne.symm hj))
    · rw [store, stored]
      exact s.store.put_cell_other pool k p _ _ _ (Ne.symm hj)
    · rw [store, stored]
      exact upd_get_other _ _ (Ne.symm ho)

/-- Settles O21: no record matches, or the cell overflows. -/
theorem programmeCellUnmatchedOrOverflowing : Obligations.ProgrammeCellUnmatchedOrOverflowing := by
  unfold Obligations.ProgrammeCellUnmatchedOrOverflowing
  intro s p unit whole aligned on remains good kind tag other
  have routed := State.routed_programme kind tag other
  have port : (s.routed p unit).port p = s.heardPort p := by
    rw [routed, (moves_offerCell _ _ _ _).port, State.heard_port]
  have arrives := exec_programmeArrival whole aligned on good kind tag (by rw [port]; exact remains)
  rw [port, routed] at arrives
  refine ⟨fun closed => ?_, fun k opened full => ?_⟩
  · rw [State.offerCell_unmatched (s := s.heard p) closed] at arrives
    exact arrives.trans (congrArg Host.Outcome.next (s.setPort_setPort p _ _))
  · rw [State.offerCell_overflow (s := s.heard p) opened (by rw [State.heard_port]; exact full)] at arrives
    have overflowed := (s.heard p).overflow_eq p k (unitHeader unit).cont
    rw [overflowed] at arrives
    refine ⟨_, arrives, upd_upd _ _ _ _, rfl, (s.heard p).count_counter _ 1, fun c hc => (s.heard p).count_counter_other hc 1, rfl⟩

end Sys2Proof.Machine
end

section
/-! SUPPORT. The pattern checker and the receiver of ADDRESS and CONTROL cells (sections 8.2, 8.3 and 10.2). -/

namespace Sys2Proof.Machine

/-! ### The pattern checker (R175, R176) -/

/-- Mismatches as the pairs of places that differ. -/
theorem mismatches_eq (a b : List Bool) : mismatches a b = ((a.zip b).filter (fun x => x.1 != x.2)).length := by
  induction a generalizing b with
  | nil => rfl
  | cons x a ih =>
    cases b with
    | nil => rfl
    | cons y b =>
      rw [mismatches, ih, List.zip_cons_cons, List.filter_cons]
      cases h : (x != y)
      · rw [if_neg (by simp)]; simp
      · rw [if_pos rfl, List.length_cons, Nat.add_comm]; rfl

/-- The generator's last bits after it took some: the latest 17 of all (R171). -/
theorem lastBits_foldl_genPush (bits : List Bool) (g : BitVec 17) :
    lastBits (bits.foldl genPush g) = (lastBits g ++ bits).drop bits.length := by
  induction bits generalizing g with
  | nil => simp
  | cons b bits ih =>
    have step : lastBits g ++ b :: bits = g.getLsbD 16 :: (lastBits (genPush g b) ++ bits) := by
      rw [← List.cons_append, ← lastBits_genPush, List.append_assoc]
      rfl
    rw [List.foldl_cons, ih, step]
    rfl

theorem lastBits_injective {g h : BitVec 17} (e : lastBits g = lastBits h) : g = h := by
  apply BitVec.eq_of_getLsbD_eq
  intro k hk
  rw [← lastBits_getD g hk, ← lastBits_getD h hk, e]

/-- The seed of a cell's own first 17 bits (R175). -/
theorem seedOf_eq {bits : List Bool} (long : 17 ≤ bits.length) {seed : BitVec 17}
    (h : ∀ k, k < 17 → seed.getLsbD (16 - k) = bits.getD k false) : seedOf bits = seed := by
  have whole : (bits.take 17).length = 17 := by rw [List.length_take]; omega
  apply lastBits_injective
  have zeros : (lastBits 0).length = 17 := lastBits_length 0
  rw [seedOf, lastBits_foldl_genPush, whole, List.drop_left' zeros]
  apply List.ext_getElem (by rw [whole, lastBits_length])
  intro k hk _
  rw [whole] at hk
  have bit := h k hk
  rw [List.getD_eq_getElem?_getD, List.getElem?_eq_getElem (by omega)] at bit
  simp only [lastBits, List.getElem_map, List.getElem_range, List.getElem_take, bit, Option.getD_some]

theorem bitsOf_length (bs : List Byte) : (bitsOf bs).length = 8 * bs.length := by
  induction bs with
  | nil => rfl
  | cons b bs ih => rw [bitsOf_cons, List.length_append, ih, List.length_cons]; simp only [bitsOf]; simp; omega

/-- Writing a port commutes with a count. -/
theorem State.count_setPort (s : State) (p : PortId) (q : Port) (c : CounterId) (n : Nat) :
    (s.setPort p q).count c n = (s.count c n).setPort p q := by
  by_cases h : min (s.counter c + n) 65535 = 65535 ∧ s.counter c < 65535 ∧ s.counters.satMark.get c.index = false
  · rw [State.count_saturates h, State.count_saturates (s := s.setPort p q) h, State.handReport_offered, State.handReport_offered]
    rfl
  · rw [State.count_quiet h, State.count_quiet (s := s.setPort p q) h]
    rfl

theorem State.setPort_handReport (s : State) (p : PortId) (q : Port) (r : Report) :
    (s.setPort p q).handReport r = (s.handReport r).setPort p q := by
  rw [State.handReport_offered, State.handReport_offered]
  rfl

theorem State.handReport_counter (s : State) (r : Report) (c : CounterId) : (s.handReport r).counter c = s.counter c := by
  rw [State.handReport_offered]
  rfl

theorem State.checkCell_search {s : State} {p : PortId} (h : (s.port p).chkState = .search) (payload : List Byte) :
    s.checkCell p payload = s.searchCell p (bitsOf payload) := by simp only [State.checkCell, h]

theorem State.checkCell_locked {s : State} {p : PortId} (h : (s.port p).chkState = .locked) (payload : List Byte) :
    s.checkCell p payload = s.lockedCell p (bitsOf payload) := by simp only [State.checkCell, h]

/-- A cell in SEARCH, judged against the sequence that its own first bits begin (R175). -/
theorem State.searchCell_eq (s : State) (p : PortId) {bits : List Bool} {guess : List Bool × BitVec 17}
    (h : genRun 1231 (seedOf bits) = guess) :
    s.searchCell p bits =
      if mismatches guess.1 (bits.drop 17) ≤ 4 then
        if (s.port p).chkRun = 1 then
          (s.setPort p { s.port p with chkState := .locked, chkRun := 0, chkGen := guess.2 }).handReport
            (.patternState p .search .locked)
        else s.setPort p { s.port p with chkRun := (s.port p).chkRun + 1 }
      else s.setPort p { s.port p with chkRun := 0 } := by
  have second : ((s.port p).chkRun + 1 = 2) = ((s.port p).chkRun = 1) := propext ⟨Nat.succ.inj, congrArg _⟩
  subst h
  simp only [State.searchCell, second]
  rfl

/-- A cell in LOCKED: what it misses is counted, and the checker runs on or falls back (R176). -/
theorem State.lockedCell_eq (s : State) (p : PortId) (bits : List Bool) {own : List Bool × BitVec 17}
    (h : genRun 1248 (s.port p).chkGen = own) :
    s.lockedCell p bits =
      let missed := mismatches own.1 bits
      let counted := s.count (.port p .patternErr) missed
      if missed ≤ 64 then counted.setPort p { s.port p with chkGen := own.2, chkRun := 0 }
      else if (s.port p).chkRun = 1 then
        (counted.handReport (.patternState p .locked .search)).setPort p
          { s.port p with chkGen := own.2, chkState := .search, chkRun := 0 }
      else counted.setPort p { s.port p with chkGen := own.2, chkRun := (s.port p).chkRun + 1 } := by
  have second : ((s.port p).chkRun + 1 = 2) = ((s.port p).chkRun = 1) := propext ⟨Nat.succ.inj, congrArg _⟩
  subst h
  simp only [State.lockedCell, State.count_setPort, State.setPort_port, State.setPort_setPort, State.setPort_handReport, second]
  rfl

/-! ### ADDRESS and CONTROL cells on CP0 (R146 to R150) -/

/-- What an ADDRESS cell names (R146). -/
theorem Mgmt.matches_iff (m : Mgmt) (payload : List Byte) :
    m.matches payload = true ↔
      (∃ l, addressesOf payload = some l ∧ 4095 ∈ l) ∨
        (1 ≤ m.unitAddr.toNat ∧ m.unitAddr.toNat ≤ 4094 ∧ ∃ l, addressesOf payload = some l ∧ m.unitAddr ∈ l) ∨
          ∃ g, some g ∈ m.groups.toList ∧ ∃ l, addressesOf payload = some l ∧ g ∈ l := by
  have answers (a : BitVec 12) : m.answersTo a = true ↔
      a = 4095 ∨ (a = m.unitAddr ∧ 1 ≤ m.unitAddr.toNat ∧ m.unitAddr.toNat ≤ 4094) ∨ some a ∈ m.groups.toList := by
    simp only [Mgmt.answersTo, Bool.or_eq_true, Bool.and_eq_true, decide_eq_true_eq, List.any_eq_true, or_assoc, and_assoc,
      exists_eq_right]
  unfold Mgmt.matches
  cases listed : addressesOf payload with
  | none => simp
  | some l =>
    simp only [List.any_eq_true, answers, Option.some.injEq, exists_eq_left']
    constructor
    · rintro ⟨a, mem, rfl | ⟨rfl, lower, upper⟩ | group⟩
      · exact .inl mem
      · exact .inr (.inl ⟨lower, upper, mem⟩)
      · exact .inr (.inr ⟨a, group, mem⟩)
    · rintro (mem | ⟨lower, upper, mem⟩ | ⟨g, group, mem⟩)
      · exact ⟨_, mem, .inl rfl⟩
      · exact ⟨_, mem, .inr (.inl ⟨rfl, lower, upper⟩)⟩
      · exact ⟨g, mem, .inr (.inr group)⟩

theorem kindTagAgree_management {h : Header} (kind : h.kind = .address ∨ h.kind = .control) (tag : h.tag = 4094) :
    kindTagAgree h = true := by
  rcases kind with kind | kind <;> rw [kindTagAgree, kind] <;> exact decide_eq_true tag

/-- REX, IDLE with nothing queued, takes a request at the instant it joins, whatever the response queue holds (R148, R149). -/
theorem State.takeIn_idle {s : State} (idle : s.mgmt.heldResponse = none) (empty : s.mgmt.intake = []) (q : Taken) :
    s.takeIn q = s.serve q := by
  unfold State.takeIn State.joinIntake State.rexGo
  rw [if_pos (by rw [empty]; decide)]
  simp only [empty, List.nil_append, List.length_singleton, State.rexRun, idle]
  refine congrArg (fun t => State.serve t q) ?_
  rw [← idle, ← empty]

/-- A request that is answered without a response (R68). -/
theorem State.serve_unanswered {s t : State} {q : Taken} (h : s.judgeRequest q = (t, none)) : s.serve q = t := by
  simp only [State.serve, h]

/-- A request that meets full queues is dropped (R148). -/
theorem State.takeIn_dropped {s : State} {q : Taken} (full : 8 ≤ s.mgmt.intake.length) (crowded : 16 ≤ s.mlt.responses.length) :
    s.takeIn q = s := by
  rw [State.takeIn_overrun full, State.overrun]
  exact if_neg fun room => absurd (of_decide_eq_true room) (Nat.not_lt.mpr crowded)

theorem State.takeIn_answered {s : State} {q : Taken} (full : 8 ≤ s.mgmt.intake.length) (room : s.mlt.responses.length < 16) :
    s.takeIn q = s.placeResponse (answerOf q.tag q.kind .overrun []) := by
  rw [State.takeIn_overrun full, State.overrun, if_pos (show s.responseRoom = true from decide_eq_true room)]
  rfl

/-- The number in two bytes of a record (R179). -/
theorem fieldAt_two {r : List Byte} {n : Nat} (h : n + 1 < r.length) :
    fieldAt r n 2 = (r.getD n 0).toNat * 256 + (r.getD (n + 1) 0).toNat := by
  have first : r.drop n = r.getD n 0 :: r.getD (n + 1) 0 :: r.drop (n + 2) := by
    rw [List.drop_eq_getElem_cons (by omega), List.drop_eq_getElem_cons h, List.getD_eq_getElem r 0 (by omega),
      List.getD_eq_getElem r 0 h]
  rw [fieldAt, first]
  simp [numberOf]

/-- The RequestTag of a record is its first two bytes (R180). -/
theorem takenOf_tag {r : List Byte} (h : 1 < r.length) :
    (takenOf r).tag.toNat = (r.getD 0 0).toNat * 256 + (r.getD 1 0).toNat := by
  show (BitVec.ofNat 16 (fieldAt r 0 2)).toNat = _
  rw [fieldAt_two h, BitVec.toNat_ofNat, Nat.zero_add]
  have a := (r.getD 0 0).isLt
  have b := (r.getD 1 0).isLt
  omega

/-- A cell on the CheckTag that leaves its window open: the port that the checker leaves is counted in its window. -/
theorem exec_checkedArrival {s u : State} {p : PortId} {unit : List Byte} {q : Port} (whole : unit.length = 160)
    (aligned : (s.port p).align = []) (on : (s.port p).state = .live ∨ (s.port p).state = .absent)
    (good : crc8 (unit.take 3) = unit.getD 3 0) (kind : (unitHeader unit).kind = .programme)
    (tag : (unitHeader unit).tag.toNat ≤ 4093) (checked : (s.port p).settings.checkTag = some (unitHeader unit).tag)
    (judged : (s.heard p).checkCell p (unit.drop 4) = u.setPort p q) (remains : q.winCount + 1 < q.settings.winLen) :
    exec (.cellArrival p unit) s = .next (u.setPort p { q with winCount := q.winCount + 1, winProg := q.winProg + 1 }) := by
  have routed := (State.routed_checked kind tag checked).trans judged
  have port : (s.routed p unit).port p = q := by rw [routed, State.setPort_port]
  rw [exec_programmeArrival whole aligned on good kind tag (by rw [port]; exact remains), port, routed, State.setPort_setPort]

end Sys2Proof.Machine
end

section
/-! PROOFS. The statements on the pattern checker and on ADDRESS and CONTROL cells. -/

namespace Sys2Proof.Machine

/-- Settles O23: the checker by its state, before the window counts the cell. -/
theorem checkerJudgesPatternCells : Obligations.CheckerJudgesPatternCells := by
  unfold Obligations.CheckerJudgesPatternCells
  intro s p unit whole aligned on remains good kind tag checked
  have port := s.heard_port p
  have long : 17 ≤ (bitsOf (unit.drop 4)).length := by rw [bitsOf_length, List.length_drop]; omega
  have written (q : Port) : (s.heard p).setPort p q = s.setPort p q := s.setPort_setPort p _ q
  have missing (a b : List Bool) := mismatches_eq a b
  refine fun seed spelled => ?_
  have searched (search : (s.port p).chkState = .search) : (s.heard p).checkCell p (unit.drop 4) = _ :=
    (State.checkCell_search (by rw [port]; exact search) _).trans (State.searchCell_eq _ p rfl)
  have lockedOn (locked : (s.port p).chkState = .locked) : (s.heard p).checkCell p (unit.drop 4) = _ :=
    (State.checkCell_locked (by rw [port]; exact locked) _).trans (State.lockedCell_eq _ p _ (by rw [port]))
  rw [seedOf_eq long spelled] at searched
  rw [port] at searched lockedOn
  have sameOwn : genRun 1248 (s.heardPort p).chkGen = genRun 1248 (s.port p).chkGen := rfl
  rw [sameOwn] at lockedOn
  generalize genRun 1231 seed = guess at searched ⊢
  generalize genRun 1248 (s.port p).chkGen = own at lockedOn ⊢
  refine ⟨fun search passed run => ?_, fun search passed run => ?_, fun search missed => ?_, fun locked => ?_⟩
  · have judged := searched search
    rw [missing, if_pos passed, if_neg (show ¬ (s.heardPort p).chkRun = 1 from run), written] at judged
    exact exec_checkedArrival whole aligned on good kind tag checked judged remains
  · have judged := searched search
    rw [missing, if_pos passed, if_pos (show (s.heardPort p).chkRun = 1 from run), written, State.setPort_handReport] at judged
    rw [State.setPort_handReport]
    exact exec_checkedArrival whole aligned on good kind tag checked judged remains
  · have judged := searched search
    rw [missing, if_neg missed, written] at judged
    exact exec_checkedArrival whole aligned on good kind tag checked judged remains
  · have judged := lockedOn locked
    simp only [missing] at judged
    beta_reduce
    generalize ((own.1.zip (bitsOf (unit.drop 4))).filter (fun x => x.1 != x.2)).length = n at judged ⊢
    have others (c : CounterId) (hc : c ≠ .port p .patternErr) := s.count_counter_other hc n
    have counted := s.count_counter (.port p .patternErr) n
    have heard : (s.heard p).count (.port p .patternErr) n = (s.count (.port p .patternErr) n).setPort p (s.heardPort p) :=
      s.count_setPort p _ _ n
    have frame := s.count_eq (.port p .patternErr) n
    by_cases few : n ≤ 64
    · rw [if_pos few, heard, State.setPort_setPort] at judged
      refine ⟨_, exec_checkedArrival whole aligned on good kind tag checked judged remains, counted, others, ?_⟩
      rw [frame]
      exact ⟨rfl, rfl, rfl, rfl, fun _ => rfl, fun many => absurd few (Nat.not_le.mpr many),
        fun many => absurd few (Nat.not_le.mpr many)⟩
    · by_cases run : (s.port p).chkRun = 1
      · rw [if_neg few, if_pos (show (s.heardPort p).chkRun = 1 from run), heard, State.setPort_handReport,
          State.setPort_setPort] at judged
        refine ⟨_, exec_checkedArrival whole aligned on good kind tag checked judged remains, ?_, fun c hc => ?_, ?_⟩
        · exact (State.handReport_counter _ _ _).trans counted
        · exact (State.handReport_counter _ _ _).trans (others c hc)
        · rw [State.handReport_offered, frame]
          exact ⟨rfl, rfl, rfl, rfl, fun h => absurd h few, fun _ h => absurd run h, fun _ _ => ⟨rfl, rfl⟩⟩
      · rw [if_neg few, if_neg (show ¬ (s.heardPort p).chkRun = 1 from run), heard, State.setPort_setPort] at judged
        refine ⟨_, exec_checkedArrival whole aligned on good kind tag checked judged remains, counted, others, ?_⟩
        rw [frame]
        exact ⟨rfl, rfl, rfl, rfl, fun h => absurd h few, fun _ _ => rfl, fun _ h => absurd h run⟩

/-- Settles O19: the cell is counted, and an ADDRESS cell wakes by what it lists while a CONTROL cell's request is taken. -/
theorem addressAndControlCellsOnCP0 : Obligations.AddressAndControlCellsOnCP0 := by
  unfold Obligations.AddressAndControlCellsOnCP0
  intro s unit whole aligned on remains good tag
  dsimp only
  have port := s.heard_port 0
  have address (kind : (unitHeader unit).kind = .address) :
      s.routed 0 unit = { s.heard 0 with
        mgmt := { s.mgmt with wake := if s.mgmt.matches (unit.drop 4) then .awake else .asleep } } := by
    rw [State.routed, if_pos (kindTagAgree_management (.inl kind) tag), State.route, kind]
    rfl
  have uncounted (kind : (unitHeader unit).kind ≠ .programme) : countsAsProgramme (unitHeader unit) = false := by
    simp [countsAsProgramme, kind]
  have addressed (kind : (unitHeader unit).kind = .address) : exec (.cellArrival 0 unit) s =
      .next { s.setPort 0 { s.heardPort 0 with winCount := (s.port 0).winCount + 1 } with
        mgmt := { s.mgmt with wake := if s.mgmt.matches (unit.drop 4) then .awake else .asleep } } := by
    have routedPort : (s.routed 0 unit).port 0 = s.heardPort 0 := by rw [address kind]; exact port
    rw [exec_goodArrival_open whole aligned on good (.inl (by rw [kind]; decide)) (by rw [routedPort]; exact remains),
      uncounted (by rw [kind]; decide), routedPort, address kind]
    refine congrArg Host.Outcome.next ?_
    exact congrArg (fun ps => ({ s with ports := ps, mgmt := { s.mgmt with
      wake := if s.mgmt.matches (unit.drop 4) then .awake else .asleep } } : State)) (upd_upd _ _ _ _)
  have listens (kind : (unitHeader unit).kind = .control) : exec (.cellArrival 0 unit) s =
      .next ((s.setPort 0 { s.heardPort 0 with winCount := (s.port 0).winCount + 1 }).controlCell (unit.drop 4)) := by
    have agree := kindTagAgree_management (.inr kind) tag
    have routed : s.routed 0 unit = s.heard 0 := by rw [State.routed, if_pos agree, State.route, kind]
    have counted := Port.countWindow_open (q := s.heardPort 0) remains false
    rw [exec_goodArrival whole aligned on good, routed, port, uncounted (by rw [kind]; decide), counted]
    refine congrArg Host.Outcome.next ?_
    rw [State.handOver, if_pos ⟨kind, agree, rfl⟩, State.changePort_kept (by rw [port]), State.heard, State.setPort_setPort]
    rfl
  have woken := s.mgmt.matches_iff (unit.drop 4)
  refine ⟨fun kind wakes => ?_, fun kind sleeps => ?_, fun kind asleep => ?_, fun kind awake => ?_⟩
  · rw [addressed kind, if_pos (woken.mpr wakes)]
    rfl
  · rw [addressed kind, if_neg fun h => sleeps (woken.mp h)]
    rfl
  · rw [listens kind]
    exact congrArg Host.Outcome.next (if_neg (show ¬ s.mgmt.wake = .awake by rw [asleep]; decide))
  · have taken : exec (.cellArrival 0 unit) s = .next
        ((s.setPort 0 { s.heardPort 0 with winCount := (s.port 0).winCount + 1 }).takeIn (takenOf (unit.drop 4))) :=
      (listens kind).trans (congrArg Host.Outcome.next (if_pos awake))
    have spelled (n : Nat) : (unit.drop 4).getD n 0 = unit.getD (n + 4) 0 := by
      simp [List.getD_eq_getElem?_getD, List.getElem?_drop, Nat.add_comm]
    refine ⟨?_, spelled 2, taken, fun idle empty u => ⟨fun judged => ?_, fun res l judged => ⟨fun room => ?_, fun full => ?_⟩⟩,
      fun holding room => ?_, fun full room => ?_, fun full crowded => ?_⟩
    · rw [takenOf_tag (by rw [List.length_drop]; omega), spelled, spelled]
    · rw [taken, State.takeIn_idle (s := State.setPort _ _ _) idle empty]
      exact congrArg Host.Outcome.next (State.serve_unanswered judged)
    · rw [taken, State.takeIn_idle (s := State.setPort _ _ _) idle empty]
      exact congrArg Host.Outcome.next (State.serve_placed judged room)
    · rw [taken, State.takeIn_idle (s := State.setPort _ _ _) idle empty]
      exact congrArg Host.Outcome.next (State.serve_held judged full)
    · rw [taken, State.takeIn_holding (s := State.setPort _ _ _) holding room]
      rfl
    · rw [taken, State.takeIn_answered (s := State.setPort _ _ _) full room]
      rfl
    · rw [taken, State.takeIn_dropped (s := State.setPort _ _ _) full crowded]
      rfl

end Sys2Proof.Machine
end

section
/-! SUPPORT. The response queue while REX serves a request: no request that is answered places another response in a full queue
(sections 8.4, 9.4). -/

namespace Sys2Proof.Machine

/-- A full response queue stays as it is (R150, R160). -/
def FullStays (s t : State) : Prop := 16 ≤ s.mlt.responses.length → t.mlt.responses = s.mlt.responses

namespace FullStays

theorem refl (s : State) : FullStays s s := fun _ => rfl

theorem of_eq {s t : State} (h : t.mlt.responses = s.mlt.responses) : FullStays s t := fun _ => h

theorem trans {s t u : State} (h : FullStays s t) (h' : FullStays t u) : FullStays s u := fun full => by
  have same := h full
  exact (h' (by rw [same]; exact full)).trans same

theorem foldl {β : Type} (g : State → β → State) (hg : ∀ s b, FullStays s (g s b)) (l : List β) (s : State) :
    FullStays s (l.foldl g s) := by
  induction l generalizing s with
  | nil => exact refl s
  | cons b l ih => exact (hg s b).trans (ih _)

end FullStays

theorem Moves.fullStays {s t : State} (h : Moves s t) : FullStays s t := .of_eq h.responses

/-- A commit's response is held where the queue is full (R77). -/
theorem fullStays_handCommitResponse (s : State) (r : Response) : FullStays s (s.handCommitResponse r) := fun full => by
  rw [State.handCommitResponse, if_neg fun h => absurd (of_decide_eq_true h.2) (Nat.not_lt.mpr full)]

theorem fullStays_disableFeed (s : State) (f : FeedId) : FullStays s (s.disableFeed f) := by
  have stopped := (((FullStays.of_eq (t := s.setFeed f { s.feed f with state := .disabled, pendMode := .none, injectPending := false })
    rfl).trans (moves_feedStop _ f).fullStays).trans (moves_withdrawAll _ f).fullStays).trans (moves_restEntries _ f).fullStays
  have due (t : State) (d : Due) : FullStays t { t with due := d } := .of_eq rfl
  have ended (t : State) (c : Commit) (l : List Byte) : FullStays t (t.endCommit c .state l) :=
    ((FullStays.of_eq (t := { t with commits := t.commits.filter (fun x => x.feeds &&& c.feeds = 0) }) rfl).trans
      (moves_unlockAll _ _).fullStays).trans (fullStays_handCommitResponse _ _)
  unfold State.disableFeed
  simp only
  split
  · exact ((stopped.trans (ended _ _ _)).trans (due _ _)).trans (moves_walkLanes _).fullStays
  · exact (stopped.trans (due _ _)).trans (moves_walkLanes _).fullStays

theorem fullStays_setFeed (s : State) (f : FeedId) (x : Feed) : FullStays s (s.setFeed f x) := .of_eq rfl

theorem fullStays_changeFeed (s : State) (f : FeedId) (m : FeedMode) : FullStays s (s.changeFeed f m) := by
  unfold State.changeFeed
  split
  case h_2 | h_3 | h_4 => exact fullStays_disableFeed s f
  case h_5 => exact (fullStays_setFeed s f _).trans (moves_subscribeEntries _ _).fullStays
  all_goals exact fullStays_setFeed s f _

theorem fullStays_setFeedRequest (s : State) (f m : BitVec 8) (t : BitVec 16) : FullStays s (s.applySetFeed f m t).1 := by
  unfold State.applySetFeed
  split
  · next f _ t _ _ _ =>
    split
    · have given : FullStays s (s.giveTestTag f t) := by
        unfold State.giveTestTag
        split
        · exact fullStays_setFeed _ _ _
        · exact .refl s
      exact given.trans (fullStays_changeFeed _ _ _)
    · exact .refl s
  · exact .refl s

/-- SET-PORT places no response of its own as it is applied (R18 to R20). -/
theorem State.writePort_responses (s : State) (p : PortId) (c : PortParams) (enable : Bool) (tag : Option Tag) :
    (s.writePort p c enable tag).mlt.responses = s.mlt.responses := by
  have changed (t : State) (q : Port) (old : PortState) : ((t.setPort p q).handPortChange p old).mlt.responses = t.mlt.responses :=
    (moves_handPortChange _ _ _).responses
  have enabled (t : State) : (t.enablePort p).mlt.responses = t.mlt.responses := by
    simp only [State.enablePort]
    split
    · exact changed _ _ _
    · rfl
  have disabled (t : State) : (t.disablePort p).mlt.responses = t.mlt.responses := by
    simp only [State.disablePort]
    split
    · rfl
    · exact (moves_purge _ _).responses.trans (changed _ _ _)
  have reset (t : State) (b : Bool) (old : ChkState) : (t.handCheckerReset p b old).mlt.responses = t.mlt.responses := by
    unfold State.handCheckerReset
    split
    · exact (moves_handReport _ _).responses
    · rfl
  have judged (t : State) : (if portListed c 1 then t.judgeCongestion p else t).mlt.responses = t.mlt.responses := by
    split
    · exact (moves_judgeCongestion _ _).responses
    · rfl
  have first := reset (s.setPort p (s.resetPort (s.port p) c ((s.port p).settings.changed c enable tag))) (portListed c 8)
    (s.port p).chkState
  simp only [State.writePort]
  generalize (s.setPort p _).handCheckerReset p _ _ = a at first ⊢
  have second := (judged a).trans first
  generalize (if portListed c 1 then a.judgeCongestion p else a) = b at second ⊢
  split
  · split
    · exact (enabled b).trans second
    · exact (disabled b).trans second
  · exact second

theorem fullStays_setPortRequest (s : State) (c : PortParams) : FullStays s (s.applySetPort c).1 := by
  unfold State.applySetPort
  split
  · split
    · exact .refl s
    · split
      · exact .refl s
      · exact .of_eq (s.writePort_responses _ _ _ _)
  · exact .refl s

theorem fullStays_stopLane (s : State) (l : BitVec 8) : FullStays s (s.applyStopLane l).1 := by
  unfold State.applyStopLane
  split
  · next l _ =>
    refine FullStays.trans (t := s.stopByState l) ?_ (.of_eq rfl)
    unfold State.stopByState
    split
    case h_3 =>
      exact (((moves_setRecord _ _ _).trans (moves_endMarks _ _ _)).trans (moves_handReport _ _)).fullStays.trans (.of_eq rfl)
    all_goals exact .of_eq rfl
  · exact .refl s

theorem fullStays_writeSpliceRecord (s : State) (p : SpliceParams) : FullStays s (s.applyWriteSpliceRecord p).1 := by
  have reached (r : Nat) (t : State) (l : LaneId) : FullStays t (State.reachRewritten r t l) := by
    simp only [State.reachRewritten]
    split
    · exact ((moves_setLane _ _ _).trans (moves_reach _ _ _)).fullStays
    · exact .refl t
  unfold State.applyWriteSpliceRecord
  simp only
  split
  · next r x _ _ =>
    split
    · exact .refl s
    · have all := FullStays.foldl _ (reached r) allLanes (s.setRecord r x)
      dsimp only
      exact (moves_setRecord s r x).fullStays.trans all
  · exact .refl s

/-- What a map request writes leaves the responses alone. -/
theorem State.setMaps_responses {β : Type} (g : State → β → FeedMap) (i : β → FeedId) (l : List β) (s : State) :
    (l.foldl (fun t b => t.setMap (i b) (g t b)) s).mlt.responses = s.mlt.responses := by
  induction l generalizing s with
  | nil => rfl
  | cons b l ih => exact ih _

theorem fullStays_applyRequest (s : State) (q : Taken) : FullStays s (s.applyRequest q).1 := by
  have read : ∀ {inRange : Prop} {a : Answered}, s.AnswersRead inRange a → FullStays s a.1 := by
    rintro _ _ (⟨-, l, rfl⟩ | ⟨-, rfl⟩) <;> exact .refl s
  unfold State.applyRequest
  split
  · exact .of_eq rfl
  · simp only [State.applySetCycleLength]
    split
    · exact .refl s
    · split
      · exact .refl s
      · split
        · exact .refl s
        · exact .of_eq rfl
  · exact .of_eq rfl
  · exact read s.applyReadTimebase_answers
  · exact fullStays_setPortRequest _ _
  · exact read (s.applyReadPort_answers _)
  · simp only [State.applyWriteMapEntry]
    split
    · exact .refl s
    · split
      · split
        · exact .refl s
        · exact .of_eq (State.setMaps_responses _ _ _ s)
      · exact .refl s
  · unfold State.applyClearMapEntry
    split
    · exact .refl s
    · split
      · split
        · exact .refl s
        · exact .of_eq (State.setMaps_responses _ _ _ s)
      · exact .refl s
  · unfold State.applyCommitMap
    split
    · exact .refl s
    · exact .of_eq (State.setMaps_responses _ _ _ s)
  · exact read (s.applyReadMapEntry_answers _ _ _)
  · exact fullStays_setFeedRequest _ _ _ _
  · exact read (s.applyReadFeed_answers _ _)
  · unfold State.applyInject
    split
    · split
      · exact .of_eq rfl
      · exact .refl s
    · exact .refl s
  · exact fullStays_writeSpliceRecord _ _
  · exact read (s.applyReadSpliceRecord_answers _)
  · unfold State.applyStartLane
    split
    · split
      · exact ((moves_setLane _ _ _).trans (moves_reach _ _ _)).fullStays
      · exact .refl s
    · exact .refl s
  · exact fullStays_stopLane _ _
  · exact read (s.applyReadLane_answers _)
  · unfold State.applySetReporting
    split
    · exact .of_eq rfl
    · exact .refl s
  · unfold State.applyLatchCounters
    split
    · exact .refl s
    · exact .of_eq rfl
  · exact read (s.applyReadCounters_answers _)
  · unfold State.applySetGroups
    split
    · exact .of_eq rfl
    · exact .refl s
  · exact .of_eq rfl
  · exact .refl s

/-- Every request but COMMIT-MAP is answered when it is taken (R149). -/
theorem State.judgeRequest_answers (s : State) {q : Taken} (h : ∀ fs, q.request ≠ .commitMap fs) :
    ∃ res l, (s.judgeRequest q).2 = some (res, l) := by
  unfold State.judgeRequest
  split
  · unfold State.applyRequest
    split
    case h_9 fs request => exact absurd request (h fs)
    all_goals exact ⟨_, _, rfl⟩
  · exact ⟨_, _, rfl⟩

theorem fullStays_judgeRequest (s : State) (q : Taken) : FullStays s (s.judgeRequest q).1 := by
  unfold State.judgeRequest
  split
  · exact fullStays_applyRequest s q
  · exact .refl s

/-- REX serves a request while the response queue is full: it holds the response (R149, R150). -/
theorem State.serve_full {s : State} {q : Taken} (h : ∀ fs, q.request ≠ .commitMap fs) (full : 16 ≤ s.mlt.responses.length) :
    ∃ a, (s.serve q).mgmt.heldResponse = some a ∧ a.tag = q.tag ∧ a.kind = q.kind ∧
      (s.serve q).mgmt.intake = s.mgmt.intake ∧ (s.serve q).mlt.responses = s.mlt.responses := by
  obtain ⟨res, l, answer⟩ := s.judgeRequest_answers h
  have responses := fullStays_judgeRequest s q full
  have intake := (serves_judgeRequest s q).intake
  have judged : s.judgeRequest q = ((s.judgeRequest q).1, some (res, l)) := Prod.ext rfl answer
  rw [State.serve_held judged (by rw [responses]; exact full)]
  exact ⟨_, rfl, rfl, rfl, intake, responses⟩

/-- REX rests while it holds a response (R149). -/
theorem State.rexRun_holding {s : State} {r : Response} (h : s.mgmt.heldResponse = some r) (n : Nat) : State.rexRun n s = s := by
  cases n <;> simp only [State.rexRun, h]

end Sys2Proof.Machine
end

section
/-! PROOFS. The statements on waiting responses, the intake queue and malformed requests. -/

namespace Sys2Proof.Machine

/-- Settles O25: what REX and the SMU hold is placed where the queue has room, and REX goes on. -/
theorem heldResponsesPlacedWhenRoom : Obligations.HeldResponsesPlacedWhenRoom := by
  unfold Obligations.HeldResponsesPlacedWhenRoom
  have exec_held (s : State) : exec .heldResponsePlaced s = .next s.placeHeld := rfl
  have exec_commit (s : State) : exec .commitResponsePlaced s = .next s.placeHeldCommit := rfl
  have open_ {s : State} (h : s.mlt.responses.length < 16) : s.responseRoom = true := decide_eq_true h
  have shut {s : State} (h : 16 ≤ s.mlt.responses.length) : ¬ s.responseRoom = true :=
    fun room => absurd (of_decide_eq_true room) (Nat.not_lt.mpr h)
  have placed {s : State} {r : Response} (held : s.mgmt.heldResponse = some r) (room : s.mlt.responses.length < 16) :
      s.placeHeld = (({ s with mgmt := { s.mgmt with heldResponse := none } } : State).placeResponse r).rexGo := by
    rw [State.placeHeld, held]
    exact if_pos (open_ room)
  refine ⟨fun s r held room idle => ?_, fun s r q rest held room queued other => ?_, fun s none => ?_, fun s r rest held room => ?_,
    fun s none => ?_⟩
  · rw [exec_held, placed held room, State.rexGo]
    have empty : (({ s with mgmt := { s.mgmt with heldResponse := none } } : State).placeResponse r).mgmt.intake = [] := idle
    rw [empty]
    rfl
  · have fill : (s.mlt.responses ++ [r]).length = 16 := by rw [List.length_append, room]; rfl
    let t : State := { s with
      mgmt := { s.mgmt with heldResponse := none, intake := rest }, mlt := { s.mlt with responses := s.mlt.responses ++ [r] } }
    obtain ⟨a, holds, tag, kind, intake, responses⟩ := State.serve_full (s := t) other (by rw [fill])
    have runs : s.placeHeld = State.rexRun rest.length (t.serve q) := by
      rw [placed held (by rw [room]; decide), State.rexGo]
      have waiting : (({ s with mgmt := { s.mgmt with heldResponse := none } } : State).placeResponse r).mgmt.intake = q :: rest :=
        queued
      rw [waiting, List.length_cons, State.rexRun, waiting]
      rfl
    rw [exec_held, runs, State.rexRun_holding holds]
    exact ⟨_, a, rfl, intake, holds, tag, kind, responses⟩
  · rw [exec_held, State.placeHeld]
    cases held : s.mgmt.heldResponse with
    | none => rfl
    | some r => exact congrArg Host.Outcome.next (if_neg (shut (none.resolve_left (by rw [held]; exact Option.some_ne_none r))))
  · rw [exec_commit, State.placeHeldCommit, held]
    exact congrArg Host.Outcome.next (if_pos (open_ room))
  · rw [exec_commit, State.placeHeldCommit]
    cases held : s.heldCommits with
    | nil => rfl
    | cons r rest => exact congrArg Host.Outcome.next (if_neg (shut (none.resolve_left (by rw [held]; exact List.cons_ne_nil r rest))))

/-- Settles O26: a request heard is queued, an overrun or dropped; one unheard does nothing. -/
theorem requestsQueueOrOverrun : Obligations.RequestsQueueOrOverrun := by
  unfold Obligations.RequestsQueueOrOverrun
  intro c q s taken
  refine ⟨fun hears => exec_queued taken (s.hears_iff.mpr hears), fun hears full room => ?_, fun hears full crowded => ?_,
    fun deaf => ?_⟩
  · exact exec_overrun taken (s.hears_iff.mpr hears) full room
  · rw [exec_heard taken (s.hears_iff.mpr hears), State.takeIn_dropped full crowded]
  · exact exec_unheard taken (Bool.eq_false_iff.mpr fun h => deaf (s.hears_iff.mp h))

/-- A malformed request that REX serves at once is answered MALFORMED (R151). -/
theorem exec_malformed {c : Instr} {q : Taken} {s : State} (taken : takenBy c = some q) (bad : q.request.wellFormed = false)
    (ready : s.ready) : exec c s = .next (s.placeResponse (answerOf q.tag q.kind .malformed [])) := by
  obtain ⟨-, -, -, room⟩ := id ready
  rw [exec_ready taken ready, State.serve_placed (State.judgeRequest_malformed bad) room]

/-- Settles O27: what makes a record malformed, and how it is answered. -/
theorem malformedRequestsAnswered : Obligations.MalformedRequestsAnswered := by
  unfold Obligations.MalformedRequestsAnswered
  refine ⟨fun record s whole ready wrong => ?_, fun c q s taken bad ready => exec_malformed taken bad ready, fun params => ?_,
    fun params large => ?_, fun record s good => ?_⟩
  · have malformed : (takenOf record).request = .malformed := if_neg wrong
    have bad : (takenOf record).request.wellFormed = false := by rw [malformed]; rfl
    have tag : (takenOf record).tag = BitVec.ofNat 16 ((record.getD 0 0).toNat * 256 + (record.getD 1 0).toNat) :=
      congrArg (BitVec.ofNat 16) (fieldAt_two (n := 0) (by rw [whole]; decide))
    have taken : takenBy (.malformedRequest record) = some (takenOf record) := if_neg (by rw [bad]; decide)
    rw [exec_malformed taken bad ready, tag]
    rfl
  · have unspared {w n : Nat} {x : BitVec w} (c : portListed params n = true ∨ x = 0) :
        ¬ (params.mask.getLsbD n = false ∧ x.toNat ≠ 0) := by
      rintro ⟨unlisted, used⟩
      rcases c with c | rfl
      · rw [portListed, unlisted] at c; cases c
      · exact used rfl
    refine fun spare => Bool.eq_false_iff.mpr fun clear => ?_
    replace clear : portSpareClear params = true := clear
    simp only [portSpareClear, Bool.and_eq_true, Bool.or_eq_true, decide_eq_true_eq, and_assoc] at clear
    obtain ⟨mask, c0, c1, c2, c3, c4, c5, c6, c7, c8⟩ := clear
    rcases spare with h | h | h | h | h | h | h | h | h | h
    · omega
    exacts [unspared c0 h, unspared c1 h, unspared c2 h, unspared c3 h, unspared c4 h, unspared c5 h, unspared c6 h,
      unspared c7 h, unspared c8 h]
  · exact decide_eq_false (Nat.not_lt.mpr large)
  · exact congrArg Host.Outcome.next (if_pos good)

end Sys2Proof.Machine
end

section
/-! SUPPORT. What the requests of the timebase, of reporting and of management write, said once (sections 1.4, 8.1, 8.6 and 9.2). -/

namespace Sys2Proof.Machine

theorem clampTo_eq {lo hi : Nat} (h : lo ≤ hi) (v : Nat) : clampTo lo hi v = max lo (min hi v) := by
  unfold clampTo
  split
  · omega
  · split <;> omega

/-- A value is left as it is exactly where it lies in its range. -/
theorem clampTo_eq_self_iff {lo hi v : Nat} (h : lo ≤ hi) : clampTo lo hi v = v ↔ ¬ (v < lo ∨ hi < v) := by
  rw [clampTo_eq h]
  omega

theorem mem_allFeeds (f : FeedId) : f ∈ allFeeds := by revert f; decide

/-- A feed in feed order is the first that fails a test. -/
theorem find?_allFeeds {g : FeedId → Bool} {f : FeedId} (fails : g f = true) (before : ∀ k, k < f → g k = false) :
    allFeeds.find? g = some f := by
  have first (l : List FeedId) (rising : l.Pairwise (· < ·)) (mem : f ∈ l) : l.find? g = some f := by
    induction l with
    | nil => cases mem
    | cons k l ih =>
      obtain ⟨above, rising⟩ := List.pairwise_cons.mp rising
      rcases List.mem_cons.mp mem with rfl | later
      · rw [List.find?_cons_of_pos fails]
      · rw [List.find?_cons_of_neg (by rw [before k (above f later)]; decide)]
        exact ih rising later
  exact first allFeeds (by decide) (mem_allFeeds f)

/-! ### Codes of reporting (R163) -/

theorem edgeModeOf_some {b : BitVec 8} (h : b.toNat ≤ 1) :
    edgeModeOf b = some (if b = 0 then .anyChange else .worsenOnly) := by
  unfold edgeModeOf
  split
  · rfl
  · next zero => rw [if_pos (show b = 1 by bv_omega)]

theorem edgeModeOf_none {b : BitVec 8} (h : ¬ b.toNat ≤ 1) : edgeModeOf b = none := by
  unfold edgeModeOf
  rw [if_neg (by bv_omega), if_neg (by bv_omega)]

theorem counterModeOf_some {b : BitVec 8} (h : b.toNat ≤ 1) : counterModeOf b = some (if b = 0 then .manual else .auto) := by
  unfold counterModeOf
  split
  · rfl
  · next zero => rw [if_pos (show b = 1 by bv_omega)]

theorem counterModeOf_none {b : BitVec 8} (h : ¬ b.toNat ≤ 1) : counterModeOf b = none := by
  unfold counterModeOf
  rw [if_neg (by bv_omega), if_neg (by bv_omega)]

/-- A code out of range leaves SET-REPORTING undone (R163). -/
theorem State.applySetReporting_refused (s : State) {p : ReportingParams}
    (h : ¬ (p.portEdge.toNat ≤ 1 ∧ p.timebaseEdge.toNat ≤ 1 ∧ p.patternEdge.toNat ≤ 1 ∧ p.counterMode.toNat ≤ 1)) :
    s.applySetReporting p = s.refuse .range := by
  unfold State.applySetReporting
  by_cases a : p.portEdge.toNat ≤ 1
  · by_cases b : p.timebaseEdge.toNat ≤ 1
    · by_cases c : p.patternEdge.toNat ≤ 1
      · rw [edgeModeOf_some a, edgeModeOf_some b, edgeModeOf_some c, counterModeOf_none fun d => h ⟨a, b, c, d⟩]
      · rw [edgeModeOf_some a, edgeModeOf_some b, edgeModeOf_none c]
    · rw [edgeModeOf_some a, edgeModeOf_none b]
  · rw [edgeModeOf_none a]

/-! ### Group addresses (R145) -/

/-- A group address field as SET-GROUPS answers it. -/
theorem groupOf_some {w : BitVec 16} (h : w = 0xFFFF ∨ (1 ≤ w.toNat ∧ w.toNat ≤ 4094)) :
    ∃ g, groupOf w = some g ∧ g = (if w = 0xFFFF then none else some (w.setWidth 12)) ∧ eOptTag g = bytesOf 2 w.toNat := by
  by_cases unused : w = 0xFFFF
  · subst unused
    exact ⟨_, rfl, rfl, rfl⟩
  · have range := h.resolve_left unused
    have narrow : (w.setWidth 12).toNat = w.toNat := by
      rw [BitVec.toNat_setWidth, Nat.mod_eq_of_lt (by omega)]
    refine ⟨some (w.setWidth 12), ?_, ?_, congrArg (bytesOf 2) narrow⟩
    · rw [groupOf, if_neg unused, if_pos range]
    · rw [if_neg unused]

theorem groupOf_none {w : BitVec 16} (h : ¬ (w = 0xFFFF ∨ (1 ≤ w.toNat ∧ w.toNat ≤ 4094))) : groupOf w = none := by
  obtain ⟨used, range⟩ := not_or.mp h
  rw [groupOf, if_neg used, if_neg range]

end Sys2Proof.Machine
end

section
/-! PROOFS. The statements on the cycle length, reporting, groups and the soft reset. -/

namespace Sys2Proof.Machine

/-- Settles O38: the three checks in order, then the length. -/
theorem setCycleLengthChecked : Obligations.SetCycleLengthChecked := by
  unfold Obligations.SetCycleLengthChecked
  intro tag length s ready
  have range : clampTo 256 16384 length.toNat = max 256 (min 16384 length.toNat) := clampTo_eq (by decide) _
  have judged : s.judgeRequest { tag := tag, kind := 0x11, request := .setCycleLength length } =
      answered (s.applySetCycleLength length) := rfl
  have enabled : allFeeds.any (fun f => (s.feed f).state ≠ .disabled) = true ↔ ¬ ∀ f, (s.feed f).state = .disabled := by
    simp [List.any_eq_true, mem_allFeeds]
  refine ⟨fun blocked => ?_, fun f off free exceeds before => ?_, fun off free fits => ?_⟩
  · have refused : s.applySetCycleLength length = s.refuse .state := by
      simp only [State.applySetCycleLength]
      split
      · rfl
      · next off => exact if_pos (blocked.resolve_left fun h => off (enabled.mpr h))
    rw [refused] at judged
    exact exec_answered rfl ready judged rfl
  · have named : allFeeds.find? (fun f => decide (16 * max 256 (min 16384 length.toNat) < shareSum (s.map f).active)) = some f :=
      find?_allFeeds (decide_eq_true exceeds) fun k hk => decide_eq_false (Nat.not_lt.mpr (before k hk))
    have refused : s.applySetCycleLength length = (s, .oversubscribed, [BitVec.ofNat 8 f.val]) := by
      simp only [State.applySetCycleLength]
      rw [if_neg fun h => enabled.mp h off, if_neg fun h => h free, range, named]
      simp [e1, bytesOf]
    rw [refused] at judged
    exact exec_answered rfl ready judged rfl
  · have none : allFeeds.find? (fun f => decide (16 * max 256 (min 16384 length.toNat) < shareSum (s.map f).active)) = none :=
      List.find?_eq_none.mpr fun k _ => by simpa using fits k
    have written : s.applySetCycleLength length =
        ({ s with tbu := { s.tbu with pendCycleLen := some (max 256 (min 16384 length.toNat)) } },
          if length.toNat < 256 ∨ 16384 < length.toNat then .clamped else .ok, []) := by
      simp only [State.applySetCycleLength]
      rw [if_neg fun h => enabled.mp h off, if_neg fun h => h free, range, none]
      by_cases outside : length.toNat < 256 ∨ 16384 < length.toNat
      · rw [if_pos outside, if_neg (by omega)]
      · rw [if_neg outside, if_pos (by omega)]
    rw [written] at judged
    exact exec_answered rfl ready judged rfl

/-- Settles O50: every setting is written or none. -/
theorem reportingAndGroupsWritten : Obligations.ReportingAndGroupsWritten := by
  unfold Obligations.ReportingAndGroupsWritten
  refine ⟨fun tag p s ready whole => ?_, fun tag p s ready => ?_⟩
  · have judged : s.judgeRequest { tag := tag, kind := 0x60, request := .setReporting p } = answered (s.applySetReporting p) :=
      State.judgeRequest_wellFormed whole
    refine ⟨fun bad => ?_, fun ⟨port, timebase, pattern, mode⟩ => ?_⟩
    · rw [s.applySetReporting_refused bad] at judged
      exact exec_answered rfl ready judged rfl
    · have period : clampTo 1 3600 p.period.toNat = max 1 (min 3600 p.period.toNat) := clampTo_eq (by decide) _
      have kept : (max 1 (min 3600 p.period.toNat) = p.period.toNat) = ¬ (p.period.toNat < 1 ∨ 3600 < p.period.toNat) := by
        rw [← period]; exact propext (clampTo_eq_self_iff (by decide))
      have auto : ((if p.counterMode = 0 then CounterMode.manual else .auto) = .auto) = ¬ (p.counterMode = 0) := by
        by_cases zero : p.counterMode = 0 <;> simp [zero]
      simp only [State.applySetReporting, edgeModeOf_some port, edgeModeOf_some timebase, edgeModeOf_some pattern,
        counterModeOf_some mode, period, kept, auto, ite_not, answered] at judged
      exact exec_answered rfl ready judged rfl
  · have judged : s.judgeRequest { tag := tag, kind := 0x70, request := .setGroups p } = answered (s.applySetGroups p) := rfl
    refine ⟨fun bad => ?_, fun g0 g1 g2 g3 => ?_⟩
    · have refused : s.applySetGroups p = s.refuse .range := by
        unfold State.applySetGroups
        split
        · next a b c d ha hb hc hd =>
          have good {w : BitVec 16} {g : Option (BitVec 12)} (h : groupOf w = some g) :
              w = 0xFFFF ∨ (1 ≤ w.toNat ∧ w.toNat ≤ 4094) := by
            by_contra no
            rw [groupOf_none no] at h
            cases h
          exact absurd ⟨good ha, good hb, good hc, good hd⟩ bad
        · rfl
      rw [refused] at judged
      exact exec_answered rfl ready judged rfl
    · obtain ⟨a, ha, va, ea⟩ := groupOf_some g0
      obtain ⟨b, hb, vb, eb⟩ := groupOf_some g1
      obtain ⟨c, hc, vc, ec⟩ := groupOf_some g2
      obtain ⟨d, hd, vd, ed⟩ := groupOf_some g3
      simp only [State.applySetGroups, ha, hb, hc, hd, ea, eb, ec, ed, answered] at judged
      rw [va, vb, vc, vd] at judged
      exact exec_answered rfl ready judged rfl

/-- Settles O51: a soft reset field by field, beside a power-up under the same straps. -/
theorem softResetKeepsAndReturns : Obligations.SoftResetKeepsAndReturns := by
  unfold Obligations.SoftResetKeepsAndReturns
  intro tag s u ready powered
  obtain rfl : { State.powerUp s.mgmt.unitAddr with pending := s.pending } = u := by
    injection powered
  refine ⟨s.softReset, exec_answered rfl ready (s.judge_softReset tag) rfl, rfl, rfl, rfl, rfl, fun p hp => ?_, rfl, rfl, rfl, rfl,
    rfl, rfl, rfl, rfl⟩
  have regional : ∀ p : PortId, p ≠ 0 → s.softReset.port p = Port.regional := by
    intro p
    fin_cases p
    · exact fun h => absurd rfl h
    all_goals exact fun _ => rfl
  exact (regional p hp).trans ((State.powerUp_port s.mgmt.unitAddr p).trans (if_neg hp)).symm

end Sys2Proof.Machine
end

section
/-! SUPPORT. What SET-PORT writes and a purge leaves, said once (sections 2.2, 3.4 and 3.5). -/

namespace Sys2Proof.Machine

theorem portOf_eq_some {b : BitVec 8} {p : PortId} (h : b.toNat = p.val) : portOf b = some p := by
  have inRange : b.toNat < 13 := by rw [h]; exact p.isLt
  rw [portOf, dif_pos inRange]
  exact congrArg some (Fin.ext h)

theorem portOf_eq_none {b : BitVec 8} (h : 12 < b.toNat) : portOf b = none := dif_neg (by omega)

theorem tagOf_some {w : BitVec 16} (h : w.toNat ≤ 4093) : tagOf w = some (w.setWidth 12) := if_pos h

theorem tagOf_none {w : BitVec 16} (h : ¬ w.toNat ≤ 4093) : tagOf w = none := if_neg h

theorem optTagOf_some {w : BitVec 16} (h : w.toNat ≤ 4093 ∨ w = 0xFFFF) :
    optTagOf w = some (if w = 0xFFFF then none else some (w.setWidth 12)) := by
  unfold optTagOf
  split
  · rfl
  · next given => rw [tagOf_some (h.resolve_right given)]; rfl

theorem optTagOf_none {w : BitVec 16} (h : ¬ (w.toNat ≤ 4093 ∨ w = 0xFFFF)) : optTagOf w = none := by
  obtain ⟨large, given⟩ := not_or.mp h
  rw [optTagOf, if_neg given, tagOf_none large]
  rfl

/-! ### Changes of a port by its settings (R20, R32) -/

theorem State.handPortChange_reported {s : State} {p : PortId} {old : PortState} (h : old ≠ .live) (h' : (s.port p).state ≠ .live) :
    s.handPortChange p old = s.handReport (.portState p old (s.port p).state) := by
  rw [State.handPortChange, if_neg h, if_neg h']

theorem State.handPortChange_left (s : State) (p : PortId) :
    s.handPortChange p .live = (s.handReport (.portState p .live (s.port p).state)).portFailed p := by
  rw [State.handPortChange, if_pos rfl]

/-- Enable set on a port in DOWN begins a hunt (R20). -/
theorem State.enablePort_down {s : State} {p : PortId} (h : (s.port p).state = .down) :
    s.enablePort p =
      (s.setPort p
        { s.port p with
          state := .hunt, goodRun := 0, align := [],
          lossDeadline := some (s.deadline (s.port p).settings.lossTimeout) }).handReport (.portState p .down .hunt) := by
  rw [State.enablePort, if_pos h, State.handPortChange_reported PortState.noConfusion (by rw [State.setPort_port]; exact PortState.noConfusion),
    State.setPort_port]

theorem State.enablePort_on {s : State} {p : PortId} (h : (s.port p).state ≠ .down) : s.enablePort p = s := if_neg h

/-- A port set off: DOWN with its runs and counts 0 (R20). -/
def Port.off (q : Port) : Port := { q.clearRuns with state := .down, lossDeadline := none, align := [] }

theorem State.disablePort_down {s : State} {p : PortId} (h : (s.port p).state = .down) : s.disablePort p = s := if_pos h

theorem State.disablePort_live {s : State} {p : PortId} (h : (s.port p).state = .live) :
    s.disablePort p = (((s.setPort p (s.port p).off).handReport (.portState p .live .down)).portFailed p).purge p := by
  have gone : ¬ (s.port p).state = .down := by rw [h]; decide
  rw [State.disablePort, if_neg gone, h, State.handPortChange_left, State.setPort_port]
  rfl

theorem State.disablePort_other {s : State} {p : PortId} (h : (s.port p).state ≠ .down) (h' : (s.port p).state ≠ .live) :
    s.disablePort p = ((s.setPort p (s.port p).off).handReport (.portState p (s.port p).state .down)).purge p := by
  rw [State.disablePort, if_neg h, State.handPortChange_reported h' (by rw [State.setPort_port]; exact PortState.noConfusion),
    State.setPort_port]
  rfl

/-! ### A purge (R55) -/

/-- A record with subscribers is not the blank one. -/
theorem StreamRecord.ne_unused_of_subs {r : StreamRecord} (h : r.subs ≠ 0) : r ≠ StreamRecord.unused := by
  rintro rfl; exact h rfl

/-- What a purge leaves an OPEN record: its subscribers, and no history where it had none. -/
structure StreamRecord.Purged (r r' : StreamRecord) : Prop where
  subs : r'.subs = r.subs
  waiting : r'.waiting = r.waiting
  nextCont : r.nextCont = none → r'.nextCont = none

theorem StreamRecord.Purged.refl (r : StreamRecord) : r.Purged r := ⟨rfl, rfl, id⟩

theorem StreamRecord.Purged.trans {r r' r'' : StreamRecord} (h : r.Purged r') (h' : r'.Purged r'') : r.Purged r'' :=
  ⟨h'.subs.trans h.subs, h'.waiting.trans h.waiting, fun none => h'.nextCont (h.nextCont none)⟩

/-- A record written over an OPEN one with its subscribers kept. -/
theorem Store.setStream_purged {st : Store} {k : Nat} (h : (st.stream k).subs ≠ 0) {j : Nat} {r : StreamRecord}
    (kept : (st.stream j).Purged r) : (st.stream k).Purged ((st.setStream j r).stream k) := by
  by_cases same : j = k
  · subst same
    rw [Store.setStream_stream_used st j (StreamRecord.ne_unused_of_subs (by rw [kept.subs]; exact h))]
    exact kept
  · rw [Store.setStream_stream_other st r same]
    exact .refl _

theorem Store.foldl_purged {β : Type} {k : Nat} (g : Store → β → Store)
    (hg : ∀ (st : Store) (b : β), (st.stream k).subs ≠ 0 → (st.stream k).Purged ((g st b).stream k)) (l : List β) {st : Store}
    (h : (st.stream k).subs ≠ 0) : (st.stream k).Purged ((l.foldl g st).stream k) := by
  induction l generalizing st with
  | nil => exact .refl _
  | cons b l ih =>
    have first := hg st b h
    exact first.trans (ih (by rw [first.subs]; exact h))

/-- The cell in a slot is freed, if there is one (R55). -/
def Store.freeSlot (st : Store) (slot : Nat) : Store :=
  match st.cell slot with
  | some c => st.free slot c
  | none => st

theorem Store.emptyStream_eq (st : Store) (k : Nat) :
    st.emptyStream k =
      ((st.chain k).foldl Store.freeSlot st).setStream k
        { ((st.chain k).foldl Store.freeSlot st).stream k with nextCont := none } := rfl

theorem Store.freeSlot_purged (st : Store) {k : Nat} (h : (st.stream k).subs ≠ 0) (slot : Nat) :
    (st.stream k).Purged ((st.freeSlot slot).stream k) := by
  unfold Store.freeSlot
  split
  · next c _ =>
    let t : Store := { st with
      cells := Table.erase st.cells slot, pool := st.pool.push slot, occ := upd st.occ c.port (st.occ.get c.port - 1) }
    exact Store.setStream_purged (st := t) h ⟨rfl, rfl, id⟩
  · exact .refl _

/-- Freeing the cells of a stream leaves an OPEN record its subscribers (R55). -/
theorem Store.emptyCells_purged (st : Store) {k : Nat} (h : (st.stream k).subs ≠ 0) (slots : List Nat) :
    (st.stream k).Purged ((slots.foldl Store.freeSlot st).stream k) :=
  Store.foldl_purged _ (fun t slot h => t.freeSlot_purged h slot) slots h

theorem Store.emptyStream_purged (st : Store) {k : Nat} (h : (st.stream k).subs ≠ 0) (j : Nat) :
    (st.stream k).Purged ((st.emptyStream j).stream k) := by
  have cells := st.emptyCells_purged h (st.chain j)
  rw [Store.emptyStream_eq]
  exact cells.trans (Store.setStream_purged (by rw [cells.subs]; exact h) ⟨rfl, rfl, fun _ => rfl⟩)

/-- The stream emptied has no continuity history (R55). -/
theorem Store.emptyStream_nextCont (st : Store) {k : Nat} (h : (st.stream k).subs ≠ 0) : ((st.emptyStream k).stream k).nextCont = none := by
  have cells := st.emptyCells_purged h (st.chain k)
  rw [Store.emptyStream_eq]
  refine congrArg StreamRecord.nextCont (Store.setStream_stream_used _ k (StreamRecord.ne_unused_of_subs ?_))
  exact fun none => h (cells.subs.symm.trans none)

theorem StreamRecord.isOpen_iff (r : StreamRecord) : r.isOpen = true ↔ r.subs ≠ 0 := by simp [StreamRecord.isOpen]

/-- A purge leaves an OPEN record of its port without history and with its subscribers (R55). -/
theorem State.purge_stream (s : State) {p : PortId} {k : Nat} (small : k < 128) (opened : (s.store.stream k).isOpen = true)
    (src : (s.store.stream k).src.port = p) :
    ((s.purge p).store.stream k).nextCont = none ∧ ((s.purge p).store.stream k).subs = (s.store.stream k).subs ∧
      ((s.purge p).store.stream k).waiting = (s.store.stream k).waiting := by
  have subs := (StreamRecord.isOpen_iff _).mp opened
  have mem : k ∈ s.store.openRecords.filter (fun k => (s.store.stream k).src.port = p) := by
    simp [Store.openRecords, List.mem_filter, List.mem_range, Config.streamRecords, small, opened, src]
  obtain ⟨before, after, split⟩ := List.append_of_mem mem
  rw [State.purge, State.judgeCongestion_stream, split]
  simp only [List.foldl_append, List.foldl_cons]
  have first := Store.foldl_purged Store.emptyStream (fun st j h => st.emptyStream_purged h j) before subs
  have open' : ((before.foldl Store.emptyStream s.store).stream k).subs ≠ 0 := by rw [first.subs]; exact subs
  have here := Store.emptyStream_purged _ open' k
  have open'' : (((before.foldl Store.emptyStream s.store).emptyStream k).stream k).subs ≠ 0 := by rw [here.subs]; exact open'
  have last := Store.foldl_purged Store.emptyStream (fun st j h => st.emptyStream_purged h j) after open''
  have whole := first.trans (here.trans last)
  exact ⟨last.nextCont (Store.emptyStream_nextCont _ open'), whole.subs, whole.waiting⟩

end Sys2Proof.Machine
end

section
/-! PROOFS. The statements on SET-PORT. -/

namespace Sys2Proof.Machine

/-- SET-PORT that lists Enable alone (R18). -/
def enableOnly (p : PortId) (enable : BitVec 8) : PortParams :=
  { port := BitVec.ofNat 8 p.val, mask := 1, enable := enable, quota := 0, maxAge := 0, nomDelay := 0, jitLimit := 0, winLen := 0,
    winMin := 0, lossTimeout := 0, checkTag := 0 }

theorem State.judge_setPort (s : State) (tag : BitVec 16) {c : PortParams} (h : (Request.setPort c).wellFormed = true) :
    s.judgeRequest { tag := tag, kind := 0x20, request := .setPort c } = answered (s.applySetPort c) :=
  State.judgeRequest_wellFormed h

/-- A port with its Enable written. -/
def Port.enabled (q : Port) (b : Bool) : Port := { q with settings := { q.settings with enable := b } }

theorem enableOnly_listed (p : PortId) (enable : BitVec 8) (n : Nat) : portListed (enableOnly p enable) n = decide (n = 0) := by
  simp [portListed, enableOnly]

theorem State.writePort_enableOnly (s : State) (p : PortId) (enable : BitVec 8) (b : Bool) :
    s.writePort p (enableOnly p enable) b none =
      if b then (s.setPort p ((s.port p).enabled b)).enablePort p else (s.setPort p ((s.port p).enabled b)).disablePort p := by
  have kept : s.resetPort (s.port p) (enableOnly p enable) ((s.port p).settings.changed (enableOnly p enable) b none) =
      (s.port p).enabled b := by
    simp [State.resetPort, Settings.changed, enableOnly_listed, Port.enabled]
  rw [State.writePort, kept]
  simp [enableOnly_listed, State.handCheckerReset]

theorem State.applySetPort_enableOnly (s : State) (p : PortId) {enable : BitVec 8} {b : Bool} (code : flagOf enable = some b) :
    s.applySetPort (enableOnly p enable) =
      if p = 0 ∧ b = false then s.refuse .state else (s.writePort p (enableOnly p enable) b none, .ok, []) := by
  have port : portOf (enableOnly p enable).port = some p := portOf_eq_some (by
    have := p.isLt
    exact Nat.mod_eq_of_lt (by omega))
  have clamps : portClamps (enableOnly p enable) = false := by simp [portClamps, enableOnly_listed]
  simp only [State.applySetPort, port, code, enableOnly_listed, clamps, show (enableOnly p enable).enable = enable from rfl]
  simp

theorem enableOnly_wellFormed (p : PortId) {enable : BitVec 8} : (Request.setPort (enableOnly p enable)).wellFormed = true := by
  show portSpareClear (enableOnly p enable) = true
  simp only [portSpareClear, enableOnly_listed]
  simp [enableOnly]

/-- Settles O42: Enable by the state of its port, and what a purge leaves. -/
theorem setPortEnablesAndDisables : Obligations.SetPortEnablesAndDisables := by
  unfold Obligations.SetPortEnablesAndDisables
  refine ⟨fun tag p s ready => ?_, fun s p k small opened src => s.purge_stream small opened src⟩
  have judged (enable : BitVec 8) := s.judge_setPort tag (enableOnly_wellFormed p (enable := enable))
  have asked {enable : BitVec 8} {b : Bool} (code : flagOf enable = some b) (may : ¬ (p = 0 ∧ b = false)) {t : State}
      (writes : s.writePort p (enableOnly p enable) b none = t) :
      exec (.setPort tag (enableOnly p enable)) s = .next (t.placeResponse (answerOf tag 0x20 .ok [])) := by
    have request := judged enable
    rw [s.applySetPort_enableOnly p code, if_neg may, writes] at request
    exact exec_answered rfl ready request (by rw [← writes]; exact s.writePort_responses _ _ _ _)
  have port (b : Bool) : (s.setPort p ((s.port p).enabled b)).port p = (s.port p).enabled b := s.setPort_port p _
  refine ⟨fun down => asked rfl (by simp) ?_, fun on => asked rfl (by simp) ?_, fun regional down => asked rfl (by simp [regional]) ?_,
    fun regional on dark => asked rfl (by simp [regional]) ?_, fun regional live => asked rfl (by simp [regional]) ?_,
    fun national => ?_⟩
  · rw [s.writePort_enableOnly, if_pos rfl, State.enablePort_down (by rw [port]; exact down), port, State.setPort_setPort]
    rfl
  · rw [s.writePort_enableOnly, if_pos rfl, State.enablePort_on (by rw [port]; exact on)]
    rfl
  · rw [s.writePort_enableOnly, if_neg (by decide), State.disablePort_down (by rw [port]; exact down)]
    rfl
  · rw [s.writePort_enableOnly, if_neg (by decide), State.disablePort_other (by rw [port]; exact on) (by rw [port]; exact dark),
      port, State.setPort_setPort]
    rfl
  · rw [s.writePort_enableOnly, if_neg (by decide), State.disablePort_live (by rw [port]; exact live), port, State.setPort_setPort]
    rfl
  · have request := judged 0
    rw [s.applySetPort_enableOnly p (b := false) rfl, if_pos ⟨national, rfl⟩] at request
    exact exec_answered rfl ready request rfl

/-- The settings of a SET-PORT are written, each in its range, where Enable is not listed (R18, R19). -/
theorem State.writePort_unlisted (s : State) (p : PortId) {c : PortParams} (unlisted : portListed c 0 = false) (enable : Bool)
    (tag : Option Tag) :
    s.writePort p c enable tag =
      let a := (s.setPort p (s.resetPort (s.port p) c ((s.port p).settings.changed c enable tag))).handCheckerReset p
        (portListed c 8) (s.port p).chkState
      if portListed c 1 then a.judgeCongestion p else a := by
  simp only [State.writePort, unlisted]
  rfl

/-- What new settings restart (R19). -/
theorem State.resetPort_eq (s : State) (q : Port) (c : PortParams) {t : Settings}
    (timeout : portListed c 7 = true → t.lossTimeout = max 1 c.lossTimeout.toNat) :
    s.resetPort q c t =
      { q with
        settings := t
        winCount := if portListed c 5 || portListed c 6 then 0 else q.winCount
        winProg := if portListed c 5 || portListed c 6 then 0 else q.winProg
        lossDeadline :=
          if portListed c 7 = true ∧ (q.state = .hunt ∨ q.state = .live ∨ q.state = .absent) then
            some (s.tbu.tickCount + BitVec.ofNat 48 (max 1 c.lossTimeout.toNat * 1024))
          else q.lossDeadline
        chkState := if portListed c 8 then .search else q.chkState
        chkRun := if portListed c 8 then 0 else q.chkRun } := by
  have timed : q.state.timed = true ↔ q.state = .hunt ∨ q.state = .live ∨ q.state = .absent := by
    cases q.state <;> simp [PortState.timed]
  have deadline : (if portListed c 7 && q.state.timed then some (s.deadline t.lossTimeout) else q.lossDeadline) =
      (if portListed c 7 = true ∧ (q.state = .hunt ∨ q.state = .live ∨ q.state = .absent) then
        some (s.tbu.tickCount + BitVec.ofNat 48 (max 1 c.lossTimeout.toNat * 1024)) else q.lossDeadline) := by
    by_cases due : portListed c 7 = true ∧ (q.state = .hunt ∨ q.state = .live ∨ q.state = .absent)
    · rw [if_pos due, if_pos (by rw [due.left, timed.mpr due.right]; rfl), timeout due.left]
      rfl
    · rw [if_neg due, if_neg fun h => due (by
        obtain ⟨listed, on⟩ := Bool.and_eq_true_iff.mp h
        exact ⟨listed, timed.mp on⟩)]
  simp only [State.resetPort, deadline]

theorem State.handCheckerReset_eq (s : State) (p : PortId) (listed : Bool) (old : ChkState) :
    s.handCheckerReset p listed old =
      { s with
        mlt := (if listed = true ∧ old = .locked then s.handReport (.patternState p .locked .search) else s).mlt } := by
  unfold State.handCheckerReset
  by_cases h : listed = true ∧ old = .locked
  · rw [if_pos h, if_pos (by simpa using h), State.handReport_offered]
  · rw [if_neg h, if_neg (by simpa using h)]

theorem State.judgeCongestion_eq (s : State) (p : PortId) :
    s.judgeCongestion p =
      { s with
        store :=
          { s.store with
            cong :=
              if s.store.cong.get p = true ∧ s.store.occ.get p ≤ (s.port p).settings.quota / 2 then upd s.store.cong p false
              else s.store.cong }
        mlt := (s.judgeCongestion p).mlt } := by
  unfold State.judgeCongestion
  by_cases h : s.store.cong.get p = true ∧ s.store.occ.get p ≤ (s.port p).settings.quota / 2
  · rw [if_pos h, if_pos h, State.handReport_offered]
  · rw [if_neg h, if_neg h]

theorem State.judgeCongestion_of_port {s : State} {p : PortId} {q : Port} (port : s.port p = q) :
    s.judgeCongestion p =
      { s with
        store :=
          { s.store with
            cong :=
              if s.store.cong.get p = true ∧ s.store.occ.get p ≤ q.settings.quota / 2 then upd s.store.cong p false
              else s.store.cong }
        mlt := (s.judgeCongestion p).mlt } := by
  rw [← port]
  exact s.judgeCongestion_eq p

/-- What SET-PORT clamps (R18). -/
theorem portClamps_iff (c : PortParams) :
    portClamps c = true ↔
      (portListed c 1 = true ∧ 16384 < c.quota.toNat) ∨ (portListed c 2 = true ∧ c.maxAge = 0) ∨
        (portListed c 4 = true ∧ 1048575 < c.jitLimit.toNat) ∨
        (portListed c 5 = true ∧ (c.winLen.toNat < 64 ∨ 4096 < c.winLen.toNat)) ∨
        (portListed c 6 = true ∧ (c.winMin.toNat < 1 ∨ 15 < c.winMin.toNat)) ∨ (portListed c 7 = true ∧ c.lossTimeout = 0) := by
  have outside {lo hi v : Nat} (h : lo ≤ hi) : clampTo lo hi v ≠ v ↔ v < lo ∨ hi < v :=
    (not_congr (clampTo_eq_self_iff h)).trans not_not
  have maxAge : c.maxAge.toNat < 1 ∨ 16777215 < c.maxAge.toNat ↔ c.maxAge = 0 := by bv_omega
  have lossTimeout : c.lossTimeout.toNat < 1 ∨ 65535 < c.lossTimeout.toNat ↔ c.lossTimeout = 0 := by bv_omega
  have nomDelay : ¬ 16777215 < c.nomDelay.toNat := by bv_omega
  simp only [portClamps, Bool.or_eq_true, Bool.and_eq_true, decide_eq_true_eq, outside (show 0 ≤ 16384 by decide),
    outside (show 1 ≤ 16777215 by decide), outside (show 0 ≤ 16777215 by decide), outside (show 0 ≤ 1048575 by decide),
    outside (show 64 ≤ 4096 by decide), outside (show 1 ≤ 15 by decide), outside (show 1 ≤ 65535 by decide), maxAge, lossTimeout,
    nomDelay, Nat.not_lt_zero, false_or, and_false, or_false, or_assoc]

/-- The settings as section 2.2 words their ranges. -/
theorem Settings.changed_eq (t : Settings) (c : PortParams) (enable : Bool) (tag : Option Tag) (unlisted : portListed c 0 = false) :
    t.changed c enable tag =
      { enable := t.enable
        quota := if portListed c 1 then min 16384 c.quota.toNat else t.quota
        maxAge := if portListed c 2 then max 1 c.maxAge.toNat else t.maxAge
        nomDelay := if portListed c 3 then c.nomDelay.toNat else t.nomDelay
        jitLimit := if portListed c 4 then min 1048575 c.jitLimit.toNat else t.jitLimit
        winLen := if portListed c 5 then max 64 (min 4096 c.winLen.toNat) else t.winLen
        winMin := if portListed c 6 then max 1 (min 15 c.winMin.toNat) else t.winMin
        lossTimeout := if portListed c 7 then max 1 c.lossTimeout.toNat else t.lossTimeout
        checkTag := if portListed c 8 then tag else t.checkTag } := by
  have quota : clampTo 0 16384 c.quota.toNat = min 16384 c.quota.toNat := by rw [clampTo_eq (by decide)]; omega
  have maxAge : clampTo 1 16777215 c.maxAge.toNat = max 1 c.maxAge.toNat := by
    rw [clampTo_eq (by decide)]; have := c.maxAge.isLt; omega
  have nomDelay : clampTo 0 16777215 c.nomDelay.toNat = c.nomDelay.toNat := by
    rw [clampTo_eq (by decide)]; have := c.nomDelay.isLt; omega
  have jitLimit : clampTo 0 1048575 c.jitLimit.toNat = min 1048575 c.jitLimit.toNat := by rw [clampTo_eq (by decide)]; omega
  have lossTimeout : clampTo 1 65535 c.lossTimeout.toNat = max 1 c.lossTimeout.toNat := clampTo_word 1 c.lossTimeout
  rw [Settings.changed, unlisted, quota, maxAge, nomDelay, jitLimit, lossTimeout, clampTo_eq (show 64 ≤ 4096 by decide),
    clampTo_eq (show 1 ≤ 15 by decide)]
  rfl

/-- A value that only a listed setting uses may be given for every mask. -/
theorem if_if_self {α : Type} (b : Bool) (x y z : α) : (if b then (if b then x else y) else z) = if b then x else z := by
  cases b <;> rfl

/-- The frame of new settings: the port, its congestion where its quota is listed, and reports (R18, R19, R38). -/
theorem State.writePort_frame (s : State) (p : PortId) {c : PortParams} (unlisted : portListed c 0 = false) (enable : Bool)
    (tag : Option Tag) {r : Settings} (settings : (s.port p).settings.changed c enable tag = r) {q : Port}
    (written : s.resetPort (s.port p) c r = q) :
    let t := s.writePort p c enable tag
    t = { s with ports := t.ports, store := t.store, mlt := t.mlt } ∧
    t.ports = upd s.ports p q ∧
    t.store =
      { s.store with
        cong :=
          if portListed c 1 = true ∧ s.store.cong.get p = true ∧ s.store.occ.get p ≤ q.settings.quota / 2 then
            upd s.store.cong p false
          else s.store.cong } ∧
    (portListed c 1 = false →
      t.mlt = (if portListed c 8 = true ∧ (s.port p).chkState = .locked then s.handReport (.patternState p .locked .search)
        else s).mlt) := by
  have port : (s.setPort p q).port p = q := State.setPort_port ..
  simp only [State.writePort_unlisted s p unlisted, settings, written]
  by_cases listed : portListed c 1 = true
  · have handed := State.handCheckerReset_eq (s.setPort p q) p (portListed c 8) (s.port p).chkState
    generalize (s.setPort p q).handCheckerReset p (portListed c 8) (s.port p).chkState = a at handed ⊢
    rw [if_pos listed, State.judgeCongestion_of_port (q := q) (by rw [handed]; exact port), handed]
    refine ⟨rfl, rfl, ?_, fun h => absurd listed (by rw [h]; decide)⟩
    simp only [listed, true_and]
    rfl
  · rw [if_neg listed, State.handCheckerReset_eq]
    refine ⟨rfl, rfl, ?_, fun _ => ?_⟩
    · simp only [listed]
      rfl
    · by_cases judged : portListed c 8 = true ∧ (s.port p).chkState = .locked
      · simp only [if_pos judged, State.setPort_handReport]
        rfl
      · simp only [if_neg judged]
        rfl

/-- Settles O41: the refusals in order, then every listed setting and what it restarts. -/
theorem setPortWritesListedSettings : Obligations.SetPortWritesListedSettings := by
  unfold Obligations.SetPortWritesListedSettings
  intro tag c s ready whole
  have judged := s.judge_setPort tag whole
  refine ⟨fun outside => ?_, fun p hp => ?_⟩
  · have refused : s.applySetPort c = s.refuse .range := by
      rw [State.applySetPort, portOf_eq_none outside]
    rw [refused] at judged
    exact exec_answered rfl ready judged rfl
  · have port := portOf_eq_some hp
    have spare : portListed c 0 = false → flagOf c.enable = some false := fun unlisted => by
      have clear : portSpareClear c = true := whole
      simp only [portSpareClear, Bool.and_eq_true, Bool.or_eq_true, decide_eq_true_eq, and_assoc] at clear
      obtain ⟨-, zero, -⟩ := clear
      rw [(zero.resolve_left (by rw [unlisted]; decide))]
      rfl
    refine ⟨fun unlisted bad => ?_, fun unlisted good tight => ?_, fun unlisted good fits => ?_⟩
    · have tagged : (if portListed c 8 then optTagOf c.checkTag else some none) = none := by
        obtain ⟨listed, outside⟩ := Classical.not_imp.mp bad
        exact (if_pos listed).trans (optTagOf_none outside)
      have refused : s.applySetPort c = s.refuse .range := by
        rw [State.applySetPort, port, spare unlisted, tagged]
      rw [refused] at judged
      exact exec_answered rfl ready judged rfl
    all_goals
      replace unlisted : portListed c 0 = false := unlisted
      have tagged : (if portListed c 8 then optTagOf c.checkTag else some none) =
          some (if portListed c 8 then (if c.checkTag = 0xFFFF then none else some (c.checkTag.setWidth 12)) else none) := by
        by_cases listed : portListed c 8 = true
        · rw [if_pos listed, if_pos listed]
          exact optTagOf_some (good listed)
        · rw [if_neg listed, if_neg listed]
      have quota : clampTo 0 16384 c.quota.toNat = min 16384 c.quota.toNat := by rw [clampTo_eq (by decide)]; omega
      rw [State.applySetPort, port, spare unlisted, tagged] at judged
      dsimp only at judged
      rw [unlisted, quota, if_neg (by simp)] at judged
    · obtain ⟨listed, exceeds⟩ := Classical.not_imp.mp tight
      rw [if_pos ⟨listed, Nat.not_le.mp exceeds⟩] at judged
      exact exec_answered rfl ready judged rfl
    · rw [if_neg fun ⟨listed, exceeds⟩ => absurd (fits listed) (Nat.not_le.mpr exceeds)] at judged
      rw [if_congr (portClamps_iff c) rfl rfl] at judged
      have answer := exec_answered (c := .setPort tag c) rfl ready judged (s.writePort_responses _ _ _ _)
      refine ⟨s.writePort p c false _, answer, ?_⟩
      have settings := Settings.changed_eq (s.port p).settings c false
        (if portListed c 8 then (if c.checkTag = 0xFFFF then none else some (c.checkTag.setWidth 12)) else none) unlisted
      rw [if_if_self] at settings
      obtain ⟨rest, ports, store, quiet⟩ := s.writePort_frame p unlisted false _ settings
        (State.resetPort_eq s (s.port p) c fun listed => if_pos listed)
      refine ⟨rest, ports, store.trans ?_, quiet⟩
      by_cases listed : portListed c 1 = true
      · simp only [if_pos listed]
        rfl
      · rw [if_neg fun h => listed (And.left h)]
        beta_reduce
        rw [if_neg fun h : c.mask.getLsbD 1 = true ∧ _ => listed h.left]

end Sys2Proof.Machine
end

section
/-! SUPPORT. One write over the maps of a feed set: what it leaves unchanged, and what each feed's map is after it. -/

namespace Sys2Proof.Machine

theorem feedList_nodup (fs : FeedSet) : (feedList fs).Nodup := List.Nodup.filter _ (by decide)

theorem mem_feedList {fs : FeedSet} {f : FeedId} : f ∈ feedList fs ↔ hasFeed fs f = true := by
  simp [feedList, mem_allFeeds]

theorem feedList_any {fs : FeedSet} {p : FeedId → Bool} : (feedList fs).any p = true ↔ ∃ f, hasFeed fs f = true ∧ p f = true := by
  simp [List.any_eq_true, mem_feedList]

theorem feedList_oneFeed : ∀ f : FeedId, feedList (oneFeed f) = [f] := by decide

/-- The maps of the feeds of a list, each written by one function of itself. -/
def State.mapEach (s : State) (l : List FeedId) (g : FeedMap → FeedMap) : State := l.foldl (fun t f => t.setMap f (g (t.map f))) s

theorem State.mapEach_eq (s : State) (l : List FeedId) (g : FeedMap → FeedMap) :
    s.mapEach l g = { s with maps := (s.mapEach l g).maps } := by
  induction l generalizing s with
  | nil => rfl
  | cons f l ih => exact ih (s.setMap f (g (s.map f)))

theorem State.mapEach_map_outside {l : List FeedId} {f : FeedId} (h : f ∉ l) (s : State) (g : FeedMap → FeedMap) :
    (s.mapEach l g).map f = s.map f := by
  induction l generalizing s with
  | nil => rfl
  | cons f' l ih =>
    obtain ⟨other, rest⟩ := not_or.mp (mt List.mem_cons.mpr h)
    exact (ih rest _).trans (State.setMap_map_other _ _ (Ne.symm other))

theorem State.mapEach_map {l : List FeedId} (nodup : l.Nodup) (s : State) (g : FeedMap → FeedMap) (f : FeedId) :
    (s.mapEach l g).map f = if f ∈ l then g (s.map f) else s.map f := by
  by_cases h : f ∈ l
  · rw [if_pos h]
    induction l generalizing s with
    | nil => nomatch h
    | cons f' l ih =>
      have ⟨first, rest⟩ := List.nodup_cons.mp nodup
      rcases List.mem_cons.mp h with rfl | later
      · exact (State.mapEach_map_outside first _ g).trans (State.setMap_map ..)
      · have other : f' ≠ f := fun same => first (same ▸ later)
        exact (ih rest (s.setMap f' (g (s.map f'))) later).trans (congrArg g (State.setMap_map_other _ _ other))
  · rw [if_neg h, State.mapEach_map_outside h]

theorem State.mapEach_feedList (s : State) (fs : FeedSet) (g : FeedMap → FeedMap) (f : FeedId) :
    (s.mapEach (feedList fs) g).map f = if hasFeed fs f then g (s.map f) else s.map f := by
  rw [State.mapEach_map (feedList_nodup fs)]
  exact if_congr mem_feedList rfl rfl

theorem FeedMap.bank_setBank (m : FeedMap) (k : Bank) (t : List (Nat × MapEntry)) : (m.setBank k t).bank k = t := by
  cases k <;> rfl

theorem FeedMap.bank_setBank_other (m : FeedMap) (k : Bank) (t : List (Nat × MapEntry)) :
    (m.setBank k.other t).bank k = m.bank k := by
  cases k <;> rfl

theorem FeedMap.setBank_eq (m : FeedMap) (k : Bank) (t : List (Nat × MapEntry)) :
    m.setBank k t = { m with bankA := (m.setBank k t).bankA, bankB := (m.setBank k t).bankB } := by
  cases k <;> rfl

/-- A map with an entry of its shadow written. -/
def FeedMap.shadowed (m : FeedMap) (e : Nat) (x : MapEntry) : FeedMap := m.setBank m.activeBank.other (setBankEntry m.shadow e x)

theorem FeedMap.shadowed_eq (m : FeedMap) (e : Nat) (x : MapEntry) :
    m.shadowed e x = { m with bankA := (m.shadowed e x).bankA, bankB := (m.shadowed e x).bankB } := m.setBank_eq ..

theorem FeedMap.shadowed_shadow (m : FeedMap) (e : Nat) (x : MapEntry) :
    (m.shadowed e x).shadow = setBankEntry m.shadow e x := by
  rw [FeedMap.shadow, FeedMap.shadowed_eq]
  exact m.bank_setBank ..

theorem FeedMap.shadowed_active (m : FeedMap) (e : Nat) (x : MapEntry) : (m.shadowed e x).active = m.active := by
  rw [FeedMap.active, FeedMap.shadowed_eq]
  exact m.bank_setBank_other ..

theorem State.writeShadows_eq (s : State) (fs : FeedSet) (e : Nat) (x : MapEntry) :
    s.writeShadows fs e x = s.mapEach (feedList fs) fun m => m.shadowed e x := rfl

theorem flagOf_eq {b : BitVec 8} (h : b.toNat ≤ 1) : flagOf b = some (decide (b = 1)) := by
  unfold flagOf
  by_cases zero : b = 0
  · rw [if_pos zero, zero]; rfl
  · rw [if_neg zero, if_pos (by bv_omega), decide_eq_true (by bv_omega)]

theorem writtenEntry_eq {p : MapParams} {home : Source} {fall : Option Source} (share delay : Nat) (tag : p.outTag.toNat ≤ 4093)
    (flag : p.autoRevert.toNat ≤ 1) (hasHome : sourceOf p.homeSrc = some home) (hasFall : optSourceOf p.fallSrc = some fall) :
    writtenEntry p share delay =
      some
        { used := true, outTag := p.outTag.setWidth 12, homeSrc := home, fallSrc := fall, share := share,
          autoRevert := p.autoRevert = 1, revertDelay := delay } := by
  rw [writtenEntry, tagOf_some tag, hasHome, hasFall, flagOf_eq flag]

theorem writtenEntry_none {p : MapParams} (share delay : Nat)
    (bad : ¬ (p.outTag.toNat ≤ 4093 ∧ (sourceOf p.homeSrc).isSome ∧ (optSourceOf p.fallSrc).isSome ∧ p.autoRevert.toNat ≤ 1)) :
    writtenEntry p share delay = none := by
  unfold writtenEntry
  split
  · rename_i tag home fall auto hasTag hasHome hasFall hasAuto
    refine absurd ⟨?_, by rw [hasHome]; rfl, by rw [hasFall]; rfl, (flagOf_isSome_iff _).mp (by rw [hasAuto]; rfl)⟩ bad
    exact Classical.by_contradiction fun high => nomatch hasTag.symm.trans (tagOf_none high)
  · rfl

/-- What both requests of a shadow entry do where nothing refuses them (R64, R65). -/
theorem State.writeShadows_written {s : State} (whole : s.wf = true) (fs : FeedSet) (e : Nat) (x : MapEntry) :
    s.writeShadows fs e x = { s with maps := (s.writeShadows fs e x).maps } ∧
    ∀ f, (hasFeed fs f = false → (s.writeShadows fs e x).map f = s.map f) ∧
      ((s.writeShadows fs e x).map f).activeBank = (s.map f).activeBank ∧
      ((s.writeShadows fs e x).map f).locked = (s.map f).locked ∧
      ((s.writeShadows fs e x).map f).live = (s.map f).live ∧
      ((s.writeShadows fs e x).map f).active = (s.map f).active ∧
      (hasFeed fs f = true → bankEntry ((s.writeShadows fs e x).map f).shadow e = x) ∧
      ∀ j, j ≠ e → bankEntry ((s.writeShadows fs e x).map f).shadow j = bankEntry (s.map f).shadow j := by
  refine ⟨s.mapEach_eq (feedList fs) fun m => m.shadowed e x, fun f => ?_⟩
  rw [State.writeShadows_eq, State.mapEach_feedList]
  by_cases listed : hasFeed fs f = true
  · obtain ⟨-, maps, -⟩ := s.wf_iff.mp whole
    have sorted : Table.sorted (s.map f).shadow = true := Table.sorted_of_wf (FeedMap.bank_wf (maps f) _)
    rw [if_pos listed, FeedMap.shadowed_active, FeedMap.shadowed_shadow, FeedMap.shadowed_eq]
    refine ⟨fun h => absurd listed (by rw [h]; decide), rfl, rfl, rfl, rfl, fun _ => Table.get_set_same sorted e x, fun j other => ?_⟩
    exact Table.get_set_other _ _ _ (Ne.symm other)
  · rw [if_neg listed]
    exact ⟨fun _ => rfl, rfl, rfl, rfl, rfl, fun h => absurd h listed, fun _ _ => rfl⟩

theorem entryOf_eq {b : BitVec 8} (h : b.toNat ≤ 63) : entryOf b = some b.toNat :=
  if_pos (show b.toNat < 64 by omega)

theorem entryOf_none {b : BitVec 8} (h : 63 < b.toNat) : entryOf b = none :=
  if_neg (show ¬ b.toNat < 64 by omega)

end Sys2Proof.Machine
end

section
/-! PROOFS. Requests of the maps (chapter 4): shadow entries written and cleared. -/

namespace Sys2Proof.Machine

theorem State.writeShadows_responses (s : State) (fs : FeedSet) (e : Nat) (x : MapEntry) :
    (s.writeShadows fs e x).mlt.responses = s.mlt.responses := s.setMaps_responses ..

theorem State.applyWriteMapEntry_range {s : State} {p : MapParams}
    (bad : p.feeds = 0 ∨ 63 < p.index.toNat ∨ ¬ (p.outTag.toNat ≤ 4093 ∧ (sourceOf p.homeSrc).isSome ∧
      (optSourceOf p.fallSrc).isSome ∧ p.autoRevert.toNat ≤ 1)) :
    s.applyWriteMapEntry p = s.refuse .range := by
  unfold State.applyWriteMapEntry
  by_cases none : p.feeds = 0
  · exact if_pos none
  · dsimp only
    rw [if_neg none]
    rcases bad.resolve_left none with high | bad
    · rw [entryOf_none high]
    · rw [writtenEntry_none _ _ bad]
      cases entryOf p.index <;> rfl

/-- Settles O43: RANGE, LOCKED, or the one entry of every listed shadow. -/
theorem shadowEntriesWrittenAndCleared : Obligations.ShadowEntriesWrittenAndCleared := by
  unfold Obligations.ShadowEntriesWrittenAndCleared
  intro tag p s ready u e locked tags written refused write clear
  have locks : (feedList p.feeds).any (fun f => (s.map f).locked) = true ↔ locked := feedList_any
  have wrote {a : Answered} (h : s.applyWriteMapEntry p = a) :
      s.judgeRequest { tag := tag, kind := 0x30, request := .writeMapEntry p } = answered a := by
    rw [← h]
    exact State.judgeRequest_wellFormed rfl
  have cleared {a : Answered} (h : s.applyClearMapEntry p.feeds p.index = a) :
      s.judgeRequest { tag := tag, kind := 0x31, request := .clearMapEntry p.feeds p.index } = answered a := by
    rw [← h]
    exact State.judgeRequest_wellFormed rfl
  have fields (good : tags) : ∃ home fall, sourceOf p.homeSrc = some home ∧ optSourceOf p.fallSrc = some fall := by
    obtain ⟨-, home, fall, -⟩ := good
    obtain ⟨home, hasHome⟩ := Option.isSome_iff_exists.mp home
    obtain ⟨fall, hasFall⟩ := Option.isSome_iff_exists.mp fall
    exact ⟨home, fall, hasHome, hasFall⟩
  refine ⟨fun bad => ?_, fun given low good held => ?_, fun home fall whole cost given low good free hasHome hasFall => ?_,
    fun bad => ?_, fun given low held => ?_, fun whole given low free => ?_⟩
  · exact exec_answered rfl ready (wrote (State.applyWriteMapEntry_range bad)) rfl
  · obtain ⟨home, fall, hasHome, hasFall⟩ := fields good
    obtain ⟨tagged, -, -, flag⟩ := good
    have refusal : s.applyWriteMapEntry p = s.refuse .locked := by
      simp only [State.applyWriteMapEntry, entryOf_eq low, writtenEntry_eq _ _ tagged flag hasHome hasFall]
      rw [if_neg given, if_pos (locks.mpr held)]
    exact exec_answered rfl ready (wrote refusal) rfl
  · obtain ⟨tagged, -, -, flag⟩ := good
    have byte := p.revertDelay.isLt
    have delay : clampTo 1 255 p.revertDelay.toNat = max 1 p.revertDelay.toNat := by rw [clampTo_eq (by decide)]; omega
    have share : clampTo 1 s.checkCost p.share.toNat = max 1 (min u p.share.toNat) := clampTo_eq cost _
    have exact : max 1 (min u p.share.toNat) = p.share.toNat ∧ max 1 p.revertDelay.toNat = p.revertDelay.toNat ↔
        ¬ (p.share.toNat < 1 ∨ u < p.share.toNat ∨ p.revertDelay = 0) := by
      rw [show p.revertDelay = 0 ↔ p.revertDelay.toNat = 0 by bv_omega]
      omega
    have done : s.applyWriteMapEntry p = (s.writeShadows p.feeds e
        { used := true, outTag := p.outTag.setWidth 12, homeSrc := home, fallSrc := fall, share := max 1 (min u p.share.toNat),
          autoRevert := p.autoRevert = 1, revertDelay := max 1 p.revertDelay.toNat },
        if p.share.toNat < 1 ∨ u < p.share.toNat ∨ p.revertDelay = 0 then .clamped else .ok, []) := by
      simp only [State.applyWriteMapEntry, entryOf_eq low, writtenEntry_eq _ _ tagged flag hasHome hasFall]
      rw [if_neg given, if_neg (mt locks.mp free), share, delay, if_congr exact rfl rfl, ite_not]
    exact ⟨_, exec_answered rfl ready (wrote done) (s.writeShadows_responses ..), State.writeShadows_written whole ..⟩
  · have refusal : s.applyClearMapEntry p.feeds p.index = s.refuse .range := by
      unfold State.applyClearMapEntry
      by_cases none : p.feeds = 0
      · exact if_pos none
      · rw [if_neg none, entryOf_none (bad.resolve_left none)]
    exact exec_answered rfl ready (cleared refusal) rfl
  · have refusal : s.applyClearMapEntry p.feeds p.index = s.refuse .locked := by
      simp only [State.applyClearMapEntry, entryOf_eq low]
      rw [if_neg given, if_pos (locks.mpr held)]
    exact exec_answered rfl ready (cleared refusal) rfl
  · have done : s.applyClearMapEntry p.feeds p.index = (s.writeShadows p.feeds e MapEntry.unused, .ok, []) := by
      simp only [State.applyClearMapEntry, entryOf_eq low]
      rw [if_neg given, if_neg (mt locks.mp free)]
    exact ⟨_, exec_answered rfl ready (cleared done) (s.writeShadows_responses ..), State.writeShadows_written whole ..⟩

end Sys2Proof.Machine
end

section
/-! SUPPORT. The checks of a commit: repeats among the values of a bank, and the streams of a feed that needs none. -/

namespace Sys2Proof.Machine

theorem firstRepeat_eq_none {α : Type} [DecidableEq α] (l : List (Nat × α)) : firstRepeat l = none ↔ (l.map Prod.snd).Nodup := by
  induction l with
  | nil => simp [firstRepeat]
  | cons kx l ih =>
    have repeated : l.any (fun kv => kv.2 = kx.2) = true ↔ kx.2 ∈ l.map Prod.snd := by
      simp only [List.any_eq_true, decide_eq_true_eq, List.mem_map]
    rw [List.map_cons, List.nodup_cons, ← ih, ← repeated, firstRepeat]
    split
    · next h => simp [h]
    · next h => simp [h]

theorem usedEntries_nodup (t : List (Nat × MapEntry)) : (usedEntries t).Nodup := List.nodup_range.filter _

theorem firstRepeat_entryValues {α : Type} [DecidableEq α] (t : List (Nat × MapEntry)) (g : MapEntry → α) :
    firstRepeat (entryValues t g) = none ↔
      ∀ a b, a ∈ usedEntries t → b ∈ usedEntries t → g (bankEntry t a) = g (bankEntry t b) → a = b := by
  rw [firstRepeat_eq_none, entryValues, List.map_map, List.nodup_map_iff_inj_on (usedEntries_nodup t)]
  exact ⟨fun h a b ha hb => h a ha b hb, fun h a ha b hb => h a b ha hb⟩

theorem distinct_sublist {α : Type} [DecidableEq α] (l : List α) : (distinct l).Sublist l := by
  induction l with
  | nil => exact .slnil
  | cons x l ih => exact (List.filter_sublist.trans ih).cons_cons x

theorem Store.openRecords_length (st : Store) : st.openRecords.length ≤ Config.streamRecords :=
  List.length_filter_le .. |>.trans (by rw [List.length_range])

theorem State.noRoomFeed_unneeded {s : State} {f : FeedId} (rests : s.feedNeeds f = false) : s.noRoomFeed (oneFeed f) = none := by
  have none : s.neededAfter f = [] := by rw [State.neededAfter, rests]; rfl
  rw [State.noRoomFeed, feedList_oneFeed, List.flatMap_singleton, none, List.nil_append]
  refine if_pos (((distinct_sublist _).length_le).trans ?_)
  rw [State.openForOthers, List.length_map]
  exact (List.length_filter_le ..).trans s.store.openRecords_length

/-- Checks 3 to 6 of R68 on the shadow of a feed that needs no stream. -/
theorem State.commitFeedCheck_unneeded {s : State} {f : FeedId} (rests : s.feedNeeds f = false) :
    s.commitFeedCheck f = none ↔
      shareSum (s.map f).shadow ≤ s.checkCost ∧ firstRepeat (entryValues (s.map f).shadow MapEntry.outTag) = none ∧
      firstRepeat (entryValues (s.map f).shadow MapEntry.homeSrc) = none ∧
      ∀ a, a ∈ usedEntries (s.map f).shadow →
        (bankEntry (s.map f).shadow a).fallSrc ≠ some (bankEntry (s.map f).shadow a).homeSrc := by
  have clash : s.sourceClash f = none := by rw [State.sourceClash, rests]; rfl
  unfold State.commitFeedCheck
  dsimp only
  split
  · next exceeds => exact ⟨nofun, fun ⟨fits, _⟩ => absurd exceeds (Nat.not_lt.mpr fits)⟩
  · next fits =>
    split
    · next tags => exact ⟨nofun, fun ⟨_, apart, _⟩ => nomatch tags.symm.trans apart⟩
    · next tags =>
      split
      · next homes => exact ⟨nofun, fun ⟨_, _, apart, _⟩ => nomatch homes.symm.trans apart⟩
      · next homes =>
        split
        · next e found =>
          refine ⟨nofun, fun ⟨_, _, _, apart⟩ => ?_⟩
          have same := List.find?_some found
          exact absurd (of_decide_eq_true same) (apart e (List.mem_of_find?_eq_some found))
        · next none =>
          rw [clash]
          refine ⟨fun _ => ⟨Nat.not_lt.mp fits, tags, homes, fun a used same => ?_⟩, fun _ => rfl⟩
          exact List.find?_eq_none.mp none a used (decide_eq_true same)

theorem e1_eq (v : Nat) : e1 v = [BitVec.ofNat 8 v] := by simp [e1, bytesOf]

theorem State.commitFeedCheck_oversubscribed {s : State} {f : FeedId} (exceeds : s.checkCost < shareSum (s.map f).shadow) :
    s.commitFeedCheck f = some (.oversubscribed, [BitVec.ofNat 8 f.val]) := by
  rw [State.commitFeedCheck, if_pos exceeds, e1_eq]

theorem State.commitCheck_oneFeed {s : State} {f : FeedId} (free : (s.map f).locked = false) (rests : s.feedNeeds f = false) :
    s.commitCheck (oneFeed f) = s.commitFeedCheck f := by
  have given : ∀ f, oneFeed f ≠ 0 := by decide
  rw [State.commitCheck, if_neg (given f), feedList_oneFeed, if_neg (by simp [free]), s.noRoomFeed_unneeded rests]
  simp only [List.findSome?_cons, List.findSome?_nil]
  cases s.commitFeedCheck f <;> rfl

end Sys2Proof.Machine
end

section
/-! PROOFS. COMMIT-MAP (R68 to R70). -/

namespace Sys2Proof.Machine

/-- The shadows of the listed feeds lock, and the commit waits in the table (R70). -/
theorem State.applyCommitMap_passes {s : State} {fs : FeedSet} (tag : BitVec 16) (passes : s.commitCheck fs = none) :
    s.applyCommitMap tag fs =
      ({ s.mapEach (feedList fs) (fun m => { m with locked := true }) with
          commits := s.commits ++ [{ feeds := fs, tag := tag, considered := 0, due := false }] }, none) := by
  rw [State.applyCommitMap, passes]
  rfl

theorem State.applyCommitMap_refuses {s : State} {fs : FeedSet} {r : Result × List Byte} (tag : BitVec 16)
    (fails : s.commitCheck fs = some r) : s.applyCommitMap tag fs = (s, some r) := by
  rw [State.applyCommitMap, fails]

/-- Settles O44: the commit pends or is refused whole, and the checks for one feed that needs no stream. -/
theorem commitMapPendsOrIsRefused : Obligations.CommitMapPendsOrIsRefused := by
  unfold Obligations.CommitMapPendsOrIsRefused
  refine ⟨fun tag fs s ready => ?_, fun s => if_pos rfl, fun fs f s listed held => ?_, fun f s free rests => ?_⟩
  · have judged : s.judgeRequest { tag := tag, kind := 0x32, request := .commitMap fs } = s.applyCommitMap tag fs :=
      State.judgeRequest_wellFormed rfl
    refine ⟨fun passes => ?_, fun res l fails => ?_⟩
    · rw [State.applyCommitMap_passes tag passes] at judged
      refine ⟨_, (exec_ready rfl ready).trans (congrArg _ (State.serve_unanswered judged)), ?_, rfl, s.mapEach_feedList fs _⟩
      rw [State.mapEach_eq]
    · rw [State.applyCommitMap_refuses tag fails] at judged
      exact exec_answered rfl ready judged rfl
  · have given : fs ≠ 0 := fun none => by
      rw [none] at listed
      simp [hasFeed] at listed
    rw [State.commitCheck, if_neg given, if_pos (feedList_any.mpr ⟨f, listed, held⟩)]
  · rw [State.commitCheck_oneFeed free rests]
    refine ⟨fun exceeds => State.commitFeedCheck_oversubscribed exceeds, ?_⟩
    rw [State.commitFeedCheck_unneeded rests, firstRepeat_entryValues, firstRepeat_entryValues]
    rfl

end Sys2Proof.Machine
end

section
/-! SUPPORT. Second writes to one place of the schedule, and what a lane does at the record it reaches (R111 to R114). -/

namespace Sys2Proof.Machine

theorem Table.erase_of_find_none {α : Type} {t : List (Nat × α)} {i : Nat} (h : Table.find t i = none) : Table.erase t i = t := by
  induction t with
  | nil => rfl
  | cons kv t ih =>
    obtain ⟨k, v⟩ := kv
    by_cases hk : k = i
    · simp [Table.find, hk] at h
    · simp only [Table.find, hk, if_false] at h
      simp only [Table.erase, hk, if_false, ih h]

theorem Table.put_put {α : Type} (t : List (Nat × α)) (i : Nat) (x y : α) :
    Table.put (Table.put t i x) i y = Table.put t i y := by
  induction t with
  | nil => simp [Table.put]
  | cons kv t ih =>
    obtain ⟨k, v⟩ := kv
    by_cases before : i < k
    · simp [Table.put, before]
    · by_cases here : i = k
      · simp [Table.put, here]
      · simp [Table.put, before, here, ih]

theorem Table.set_same {α : Type} [DecidableEq α] {d : α} {t : List (Nat × α)} (sorted : Table.sorted t = true) (i : Nat) (x : α) :
    Table.set d (Table.set d t i x) i x = Table.set d t i x := by
  by_cases h : x = d
  · simp only [Table.set, if_pos h, Table.erase_of_find_none (Table.find_erase_same sorted i)]
  · simp only [Table.set, if_neg h, Table.put_put]

theorem State.setRecord_same {s : State} (whole : s.wf = true) (r : Nat) (x : SpliceRecord) :
    (s.setRecord r x).setRecord r x = s.setRecord r x := by
  obtain ⟨-, -, records⟩ := s.wf_iff.mp whole
  simp only [State.setRecord, Table.set_same (Table.sorted_of_wf records)]

theorem State.setLane_setLane (s : State) (l : LaneId) (x y : Lane) : (s.setLane l x).setLane l y = s.setLane l y := by
  simp [State.setLane]

theorem State.reach_of_rests {s t : State} {l : LaneId} {r : Nat} (h : s.reachRecord l r = (t, none)) : s.reach l r = t := by
  simp only [State.reach, State.walk, h]

/-- A link record without Continue parks the lane (R111). -/
theorem State.reach_parks {s : State} {l : LaneId} {r : Nat} (link : (s.record r).carries = .link)
    (last : (s.record r).goesOn = false) : s.reach l r = s.setLane l { state := .parked, curRec := r, linkRun := 0 } := by
  refine State.reach_of_rests ?_
  simp only [State.reachRecord, State.setLane_record, link, last, State.restLane, State.setLane_lane, State.setLane_setLane]
  rfl

/-- An action record that another lane holds faults the lane (R113). -/
theorem State.reach_held {s : State} {l : LaneId} {r : Nat} (action : (s.record r).carries = .action)
    (held : (s.record r).inUse = true) :
    s.reach l r = (s.setLane l { s.lane l with state := .stopped, curRec := r }).handReport (.laneFault l r .held) := by
  refine State.reach_of_rests ?_
  simp only [State.reachRecord, State.setLane_record, action, if_pos held, State.faultLane, State.stopLaneNow, State.setLane_lane,
    State.setLane_setLane]

/-- An action record beyond its notice is waited for (R114). -/
theorem State.reach_waits {s : State} {l : LaneId} {r : Nat} (action : (s.record r).carries = .action)
    (free : (s.record r).inUse = false) (early : (s.record r).noticeLead < ((s.record r).dueCycle - s.tbu.cycleNo).toNat)
    (ahead : ((s.record r).dueCycle - s.tbu.cycleNo).toNat < 32768) :
    s.reach l r =
      (s.setRecord r { s.record r with status := .pending, outcomes := [], marks := [] }).setLane l
        { state := .waiting, curRec := r, linkRun := 0 } := by
  refine State.reach_of_rests ?_
  have distance : (s.setLane l { s.lane l with curRec := r }).distance (s.record r).dueCycle =
      ((s.record r).dueCycle - s.tbu.cycleNo).toNat := rfl
  simp only [State.reachRecord, State.setLane_record, action, if_neg (ne_true_of_eq_false free), State.evaluateRecord, distance]
  rw [if_neg (by omega), if_neg (by omega), if_neg (by omega)]
  simp only [State.restLane, State.setRecord_lane, State.setLane_lane]
  exact congrArg (fun t => (t, none)) ((s.setRecord r _).setLane_setLane l _ _)

end Sys2Proof.Machine
end

section
/-! PROOFS. START-LANE and STOP-LANE (R107, R108). -/

namespace Sys2Proof.Machine

theorem State.handReport_responses (s : State) (r : Report) : (s.handReport r).mlt.responses = s.mlt.responses := by
  unfold State.handReport Mlt.enqueue
  split
  · dsimp only
    split <;> rfl
  · rfl

theorem laneOf_eq {b : BitVec 8} {l : LaneId} (h : b.toNat = l.val) : laneOf b = some l := by
  rw [laneOf, dif_pos (by rw [h]; exact l.isLt)]
  exact congrArg some (Fin.ext h)

theorem laneOf_none {b : BitVec 8} (h : 3 < b.toNat) : laneOf b = none := dif_neg (by omega)

theorem recordOf_eq {w : BitVec 16} (h : w.toNat ≤ 1023) : recordOf w = some w.toNat :=
  if_pos (show w.toNat < 1024 by omega)

theorem recordOf_none {w : BitVec 16} (h : 1023 < w.toNat) : recordOf w = none :=
  if_neg (show ¬ w.toNat < 1024 by omega)

theorem State.stopByState_unmarked {s : State} {l : LaneId} (noticed : (s.lane l).state = .noticed)
    (unmarked : ∀ f, (s.record (s.lane l).curRec).markOf f ≠ some .held) :
    s.stopByState l =
      ((s.setRecord (s.lane l).curRec { s.record (s.lane l).curRec with status := .abandoned }).handReport
        (.spliceOutcome l (s.lane l).curRec .abandoned [])).setLane l { s.lane l with state := .stopped } := by
  have none : (feedList (s.record (s.lane l).curRec).feeds).filter
      (fun f => (s.record (s.lane l).curRec).markOf f = some .held) = [] :=
    List.filter_eq_nil_iff.mpr fun f _ held => unmarked f (of_decide_eq_true held)
  simp only [State.stopByState, noticed, State.abandon, State.endMarks, none, List.foldl_nil, State.stopLaneNow,
    State.handReport_offered]
  rfl

/-- Settles O49: a lane at its head record, and a lane stopped by its state. -/
theorem lanesStartAndStop : Obligations.LanesStartAndStop := by
  unfold Obligations.LanesStartAndStop
  refine ⟨fun tag lane head s ready => ?_, fun tag lane s ready => ?_⟩
  · have judged {a : Answered} (h : s.applyStartLane lane head = a) :
        s.judgeRequest { tag := tag, kind := 0x52, request := .startLane lane head } = answered a := by
      rw [← h]
      exact State.judgeRequest_wellFormed rfl
    intro refused r d
    refine ⟨fun bad => ?_, fun l hl low => ?_⟩
    · have refusal : s.applyStartLane lane head = s.refuse .range := by
        unfold State.applyStartLane
        rcases bad with high | high
        · rw [laneOf_none high]
        · rw [recordOf_none high]
          cases laneOf lane <;> rfl
      exact exec_answered rfl ready (judged refusal) rfl
    · intro done
      have started (stopped : (s.lane l).state = .stopped) :
          s.applyStartLane lane head = ((s.setLane l { state := .stopped, curRec := r, linkRun := 0 }).reach l r, .ok, []) := by
        simp only [State.applyStartLane, laneOf_eq hl, recordOf_eq low, if_pos stopped]
        rw [stopped]
      refine ⟨fun running => ?_, fun stopped link last => ?_, fun stopped action free early ahead => ?_,
        fun stopped action held => ?_⟩
      · have refusal : s.applyStartLane lane head = s.refuse .state := by
          simp only [State.applyStartLane, laneOf_eq hl, recordOf_eq low, if_neg running]
        exact exec_answered rfl ready (judged refusal) rfl
      · have parked := started stopped
        rw [State.reach_parks (s := s.setLane l _) link last, State.setLane_setLane] at parked
        exact exec_answered rfl ready (judged parked) rfl
      · have waits := started stopped
        rw [State.reach_waits (s := s.setLane l _) action free early ahead] at waits
        have both := (s.setRecord r { s.record r with status := .pending, outcomes := [], marks := [] }).setLane_setLane l
          { state := .stopped, curRec := r, linkRun := 0 } { state := .waiting, curRec := r, linkRun := 0 }
        refine exec_answered rfl ready (judged (waits.trans (congrArg (fun t => (t, _, _)) ?_))) rfl
        exact both
      · have faults := started stopped
        rw [State.reach_held (s := s.setLane l _) action held, State.setLane_setLane, State.setLane_lane] at faults
        exact exec_answered rfl ready (judged faults) (State.handReport_responses ..)
  · have judged {a : Answered} (h : s.applyStopLane lane = a) :
        s.judgeRequest { tag := tag, kind := 0x53, request := .stopLane lane } = answered a := by
      rw [← h]
      exact State.judgeRequest_wellFormed rfl
    refine ⟨fun high => ?_, fun l hl => ?_⟩
    · have refusal : s.applyStopLane lane = s.refuse .range := by
        rw [State.applyStopLane, laneOf_none high]
      exact exec_answered rfl ready (judged refusal) rfl
    · intro x y done
      have stopped {t : State} (h : s.stopByState l = t) (kept : t.mlt.responses = s.mlt.responses) : done t := by
        refine ⟨{ t.due with lanes := t.due.lanes &&& ~~~ BitVec.twoPow 4 l.val }, ?_⟩
        refine exec_answered rfl ready (judged
          (a := ({ t with due := { t.due with lanes := t.due.lanes &&& ~~~ BitVec.twoPow 4 l.val } }, .ok, [])) ?_) kept
        rw [← h, State.applyStopLane, laneOf_eq hl]
      refine ⟨?_, fun armed => ?_, ?_, fun noticed unmarked => ?_⟩
      · rintro (waiting | parked)
        · exact stopped (by rw [State.stopByState, waiting]; rfl) rfl
        · exact stopped (by rw [State.stopByState, parked]; rfl) rfl
      · exact stopped (by rw [State.stopByState, armed]) rfl
      · rintro (stopping | still)
        · exact stopped (by rw [State.stopByState, stopping]) rfl
        · exact stopped (by rw [State.stopByState, still]) rfl
      · exact stopped (State.stopByState_unmarked noticed unmarked) (State.handReport_responses ..)

end Sys2Proof.Machine
end

section
/-! PROOFS. WRITE-SPLICE-RECORD (R106). -/

namespace Sys2Proof.Machine

/-- The ranges of a record's codes, tag, source and feeds (R106). -/
def spliceGood (p : SpliceParams) : Prop :=
  p.nextRec.toNat ≤ 1023 ∧ p.carries.toNat ≤ 1 ∧ p.goesOn.toNat ≤ 1 ∧ p.action.toNat ≤ 2 ∧ p.onMiss.toNat ≤ 1 ∧
    p.outTag.toNat ≤ 4093 ∧ (sourceOf p.newSrc).isSome ∧ (p.carries = 0 → p.feeds ≠ 0)

theorem carriesOf_eq {b : BitVec 8} (h : b.toNat ≤ 1) : carriesOf b = some (if b = 0 then .action else .link) := by
  unfold carriesOf
  by_cases zero : b = 0
  · rw [if_pos zero, if_pos zero]
  · rw [if_neg zero, if_neg zero, if_pos (by bv_omega)]

theorem carriesOf_none {b : BitVec 8} (h : ¬ b.toNat ≤ 1) : carriesOf b = none := by
  rw [carriesOf, if_neg (by bv_omega), if_neg (by bv_omega)]

theorem actionOf_eq {b : BitVec 8} (h : b.toNat ≤ 2) :
    actionOf b = some (if b = 0 then .switch else if b = 1 then .returnHome else .share) := by
  unfold actionOf
  by_cases zero : b = 0
  · rw [if_pos zero, if_pos zero]
  · rw [if_neg zero, if_neg zero]
    by_cases one : b = 1
    · rw [if_pos one, if_pos one]
    · rw [if_neg one, if_neg one, if_pos (by bv_omega)]

theorem actionOf_none {b : BitVec 8} (h : ¬ b.toNat ≤ 2) : actionOf b = none := by
  rw [actionOf, if_neg (by bv_omega), if_neg (by bv_omega), if_neg (by bv_omega)]

theorem onMissOf_eq {b : BitVec 8} (h : b.toNat ≤ 1) : onMissOf b = some (if b = 0 then .force else .cancel) := by
  unfold onMissOf
  by_cases zero : b = 0
  · rw [if_pos zero, if_pos zero]
  · rw [if_neg zero, if_neg zero, if_pos (by bv_omega)]

theorem onMissOf_none {b : BitVec 8} (h : ¬ b.toNat ≤ 1) : onMissOf b = none := by
  rw [onMissOf, if_neg (by bv_omega), if_neg (by bv_omega)]

/-- The record that a WRITE-SPLICE-RECORD in its ranges writes (R106). -/
def spliceWritten (p : SpliceParams) (src : Source) (share : Nat) : SpliceRecord :=
  { nextRec := p.nextRec.toNat, carries := if p.carries = 0 then .action else .link, goesOn := p.goesOn = 1,
    action := if p.action = 0 then .switch else if p.action = 1 then .returnHome else .share, feeds := p.feeds,
    outTag := p.outTag.setWidth 12, newSrc := src, newShare := share, dueCycle := p.dueCycle,
    noticeLead := p.noticeLead.toNat, window := max 1 p.window.toNat, onMiss := if p.onMiss = 0 then .force else .cancel,
    status := .pending, outcomes := [], marks := [] }

theorem writtenRecord_eq {p : SpliceParams} {src : Source} (good : spliceGood p) (hasSrc : sourceOf p.newSrc = some src) (share : Nat) :
    writtenRecord p share = some (spliceWritten p src share) := by
  obtain ⟨next, carries, goesOn, action, onMiss, tag, -, feeds⟩ := good
  have window : clampTo 1 255 p.window.toNat = max 1 p.window.toNat := by
    have := p.window.isLt
    rw [clampTo_eq (by decide)]
    omega
  have listed : ¬ ((if p.carries = 0 then Carries.action else .link) = .action ∧ p.feeds = 0) := fun ⟨acts, nobody⟩ => by
    by_cases zero : p.carries = 0
    · exact feeds zero nobody
    · rw [if_neg zero] at acts
      nomatch acts
  rw [writtenRecord, recordOf_eq next, carriesOf_eq carries, flagOf_eq goesOn, actionOf_eq action, tagOf_some tag, hasSrc,
    onMissOf_eq onMiss]
  dsimp only
  rw [if_neg listed, window]
  rfl

theorem good_of_writtenRecord {p : SpliceParams} {share : Nat} {x : SpliceRecord} (h : writtenRecord p share = some x) :
    spliceGood p := by
  unfold writtenRecord at h
  split at h
  · rename_i nextRec carries goesOn action outTag newSrc onMiss next carry goes act tag src miss
    refine ⟨(recordOf_isSome_iff _).mp (by rw [next]; rfl), ?_, (flagOf_isSome_iff _).mp (by rw [goes]; rfl), ?_, ?_, ?_,
      by rw [src]; rfl, fun zero none => ?_⟩
    · exact Classical.by_contradiction fun high => nomatch carry.symm.trans (carriesOf_none high)
    · exact Classical.by_contradiction fun high => nomatch act.symm.trans (actionOf_none high)
    · exact Classical.by_contradiction fun high => nomatch miss.symm.trans (onMissOf_none high)
    · exact Classical.by_contradiction fun high => nomatch tag.symm.trans (tagOf_none high)
    · rw [carriesOf, if_pos zero] at carry
      obtain rfl := Option.some.inj carry
      rw [if_pos ⟨rfl, none⟩] at h
      nomatch h
  · nomatch h

theorem State.applyWriteSpliceRecord_range {s : State} {p : SpliceParams} (bad : ¬ (p.index.toNat ≤ 1023 ∧ spliceGood p)) :
    s.applyWriteSpliceRecord p = s.refuse .range := by
  unfold State.applyWriteSpliceRecord
  dsimp only
  split
  · rename_i r x index written
    exact absurd ⟨(recordOf_isSome_iff _).mp (by rw [index]; rfl), good_of_writtenRecord written⟩ bad
  · rfl

/-- A walk over the lanes in which one lane alone acts. -/
theorem foldl_one {α β : Type} {g : α → β → α} {l : List β} {b : β} {s : α} (nodup : l.Nodup) (mem : b ∈ l)
    (before : ∀ b', b' ≠ b → g s b' = s) (after : ∀ b', b' ≠ b → g (g s b) b' = g s b) : l.foldl g s = g s b := by
  have idle : ∀ (l : List β) (t : α), (∀ b' ∈ l, g t b' = t) → l.foldl g t = t := fun l t h => by
    induction l with
    | nil => rfl
    | cons b' l ih => rw [List.foldl_cons, h b' (.head _), ih fun b' hb => h b' (.tail _ hb)]
  induction l with
  | nil => nomatch mem
  | cons b' l ih =>
    have ⟨first, rest⟩ := List.nodup_cons.mp nodup
    by_cases same : b' = b
    · subst same
      rw [List.foldl_cons, idle l _ fun b' hb => after b' fun same => first (same ▸ hb)]
    · rw [List.foldl_cons, before b' same]
      exact ih rest ((List.mem_cons.mp mem).resolve_left (Ne.symm same))

theorem foldl_idle {α β : Type} {g : α → β → α} {s : α} (idle : ∀ b, g s b = s) (l : List β) : l.foldl g s = s := by
  induction l with
  | nil => rfl
  | cons b l ih => rw [List.foldl_cons, idle, ih]

theorem State.reachRewritten_elsewhere {s : State} {r : Nat} {l : LaneId}
    (h : (s.lane l).curRec = r → (s.lane l).state ≠ .waiting ∧ (s.lane l).state ≠ .parked) : State.reachRewritten r s l = s :=
  if_neg fun ⟨here, rests⟩ => rests.elim (h here).left (h here).right

/-- A lane at rest on a record that is rewritten to an action beyond its notice waits for it (R106, R114). -/
theorem State.reachRewritten_waits {s : State} {r : Nat} {l : LaneId} {x : SpliceRecord} (whole : s.wf = true)
    (here : (s.lane l).curRec = r) (rests : (s.lane l).state = .waiting ∨ (s.lane l).state = .parked)
    (action : x.carries = .action) (fresh : { x with status := .pending, outcomes := [], marks := [] } = x)
    (early : x.noticeLead < (x.dueCycle - s.tbu.cycleNo).toNat) (ahead : (x.dueCycle - s.tbu.cycleNo).toNat < 32768) :
    State.reachRewritten r (s.setRecord r x) l =
      (s.setRecord r x).setLane l { s.lane l with state := .waiting, linkRun := 0 } := by
  obtain ⟨-, -, records⟩ := s.wf_iff.mp whole
  have written : (s.setRecord r x).record r = x := State.setRecord_record s (Table.sorted_of_wf records) r x
  have free : x.inUse = false := by rw [← fresh]; rfl
  have waits := State.reach_waits (s := (s.setRecord r x).setLane l { s.lane l with linkRun := 0 }) (l := l) (r := r)
    (by rw [State.setLane_record, written]; exact action) (by rw [State.setLane_record, written]; exact free)
    (by rw [State.setLane_record, written]; exact early) (by rw [State.setLane_record, written]; exact ahead)
  have again : ((s.setRecord r x).setLane l { s.lane l with linkRun := 0 }).setRecord r x =
      (s.setRecord r x).setLane l { s.lane l with linkRun := 0 } :=
    congrArg (fun t => State.setLane t l { s.lane l with linkRun := 0 }) (State.setRecord_same whole r x)
  rw [State.setLane_record, written, fresh, again, State.setLane_setLane] at waits
  subst here
  exact (if_pos ⟨rfl, rests⟩).trans waits

/-- Settles O48: RANGE, IN-USE, or the record written whole and reached afresh by the lane parked on it. -/
theorem spliceRecordWritten : Obligations.SpliceRecordWritten := by
  unfold Obligations.SpliceRecordWritten
  intro tag p s r ready index u inRange refused result
  subst index
  have judged {a : Answered} (h : s.applyWriteSpliceRecord p = a) :
      s.judgeRequest { tag := tag, kind := 0x50, request := .writeSpliceRecord p } = answered a := by
    rw [← h]
    exact State.judgeRequest_wellFormed rfl
  have ranges : inRange ↔ p.index.toNat ≤ 1023 ∧ spliceGood p := Iff.rfl
  refine ⟨fun bad => ?_, fun good used => ?_, fun src cost good free hasSrc => ?_⟩
  · exact exec_answered rfl ready (judged (State.applyWriteSpliceRecord_range bad)) rfl
  · obtain ⟨low, good⟩ := ranges.mp good
    obtain ⟨-, -, -, -, -, -, some, -⟩ := id good
    obtain ⟨src, hasSrc⟩ := Option.isSome_iff_exists.mp some
    have refusal : s.applyWriteSpliceRecord p = s.refuse .inUse := by
      simp only [State.applyWriteSpliceRecord, recordOf_eq low, writtenRecord_eq good hasSrc, if_pos used]
    exact exec_answered rfl ready (judged refusal) rfl
  · intro x answered
    obtain ⟨low, good⟩ := ranges.mp good
    have share : clampTo 1 s.checkCost p.newShare.toNat = max 1 (min u p.newShare.toNat) := clampTo_eq cost _
    have exact : max 1 (min u p.newShare.toNat) = p.newShare.toNat ∧ max 1 p.window.toNat = p.window.toNat ↔
        ¬ (p.newShare.toNat < 1 ∨ u < p.newShare.toNat ∨ p.window = 0) := by
      rw [show p.window = 0 ↔ p.window.toNat = 0 by bv_omega]
      omega
    have written : s.applyWriteSpliceRecord p =
        (allLanes.foldl (State.reachRewritten p.index.toNat) (s.setRecord p.index.toNat x), result, []) := by
      simp only [State.applyWriteSpliceRecord, recordOf_eq low, writtenRecord_eq good hasSrc, if_neg (ne_true_of_eq_false free),
        share]
      refine congrArg (fun res => (allLanes.foldl (State.reachRewritten p.index.toNat) (s.setRecord p.index.toNat x), res, [])) ?_
      exact (if_congr exact rfl rfl).trans (ite_not ..)
    refine ⟨fun elsewhere => ?_, fun l here parked alone whole action early ahead => ?_⟩
    · rw [foldl_idle (s := s.setRecord p.index.toNat x) (fun l => State.reachRewritten_elsewhere (elsewhere l)) allLanes] at written
      exact exec_answered rfl ready (judged written) rfl
    · have lanes : ∀ l, l ∈ allLanes := by decide
      have waits := State.reachRewritten_waits whole here (.inr parked) action rfl early ahead
      rw [foldl_one (g := State.reachRewritten p.index.toNat) (b := l) (s := s.setRecord p.index.toNat x) (by decide) (lanes l)
        (fun l' other => State.reachRewritten_elsewhere fun there => absurd there (alone l' other))
        (fun l' other => State.reachRewritten_elsewhere fun there => absurd there ?_), waits] at written
      · exact exec_answered rfl ready (judged written) rfl
      · rw [waits, State.setLane_lane_other _ _ (Ne.symm other)]
        exact alone l' other

end Sys2Proof.Machine
end

section
/-! SUPPORT. The stream table under subscribes (R40 to R43): who reads a stream after them, and that streams which fit are found
room. -/

namespace Sys2Proof.Machine

/-- The stream table in canonical form, no two OPEN records naming one stream, and every waiting feed a subscriber. -/
structure Store.Streams (st : Store) : Prop where
  wf : st.wf = true
  sound : st.streamsSound

/-- A feed reads a stream: it subscribes to its OPEN record and does not wait. -/
def Store.Reads (st : Store) (f : FeedId) (src : Source) : Prop :=
  ∃ k, st.openAt src = some k ∧ hasFeed (st.stream k).subs f = true ∧ hasFeed (st.stream k).waiting f = false

section
variable {st : Store} {f : FeedId} {src : Source} {k : Nat}

theorem Store.Streams.joined (h : st.Streams) (found : st.openAt src = some k) (f : FeedId) (w : Bool) :
    (st.setStream k ((st.stream k).joined f w)).Streams := by
  obtain ⟨low, used, -⟩ := Store.openAt_some found
  refine ⟨Store.setStream_wf h.wf .., Store.streamsSound_setStream h.wf h.sound k _
    (StreamRecord.joined_waits (h.sound.2 k) f w) fun _ j hj other usedj same => other ?_⟩
  exact h.sound.1 j k hj low usedj used (same.trans (StreamRecord.joined_src ..))

theorem Store.Streams.opened (h : st.Streams) (unopened : st.openAt src = none) (k : Nat) (f : FeedId) (w : Bool) :
    (st.setStream k (StreamRecord.opened f src w)).Streams := by
  refine ⟨Store.setStream_wf h.wf .., Store.streamsSound_setStream h.wf h.sound k _ (fun g waits => ?_)
    fun _ j hj _ used => Store.openAt_none unopened hj used⟩
  cases w
  · simp [StreamRecord.opened, hasFeed] at waits
  · simpa [StreamRecord.opened] using waits

theorem Store.Streams.openAt_written {r : StreamRecord} (h : st.Streams) (after : (st.setStream k r).Streams) (low : k < 128)
    (used : r.isOpen = true) (names : r.src = src) : (st.setStream k r).openAt src = some k := by
  have written := st.setStream_stream h.wf k r
  have found := Store.openAt_eq after.sound low (by rw [written]; exact used)
  rw [written, names] at found
  exact found

theorem Store.Streams.openAt_kept {r : StreamRecord} {j : Nat} (after : (st.setStream k r).Streams)
    (found : st.openAt src = some j) (other : k ≠ j) : (st.setStream k r).openAt src = some j := by
  obtain ⟨low, used, names⟩ := Store.openAt_some found
  have same := st.setStream_stream_other r other
  have again := Store.openAt_eq after.sound low (by rw [same]; exact used)
  rw [same, names] at again
  exact again

/-- A write of one record keeps every reader that it does not take from that record. -/
theorem Store.Streams.reads_kept {r : StreamRecord} (h : st.Streams) (after : (st.setStream k r).Streams)
    (keeps : ∀ {src}, st.openAt src = some k → hasFeed (st.stream k).subs f = true → hasFeed (st.stream k).waiting f = false →
      r.src = src ∧ hasFeed r.subs f = true ∧ hasFeed r.waiting f = false)
    (reads : st.Reads f src) : (st.setStream k r).Reads f src := by
  obtain ⟨j, found, subs, waits⟩ := reads
  by_cases same : k = j
  · subst same
    obtain ⟨names, subs, waits⟩ := keeps found subs waits
    refine ⟨k, Store.Streams.openAt_written h after (Store.openAt_some found).1 (StreamRecord.isOpen_of_hasFeed subs) names, ?_⟩
    rw [st.setStream_stream h.wf]
    exact ⟨subs, waits⟩
  · refine ⟨j, after.openAt_kept found same, ?_⟩
    rw [st.setStream_stream_other r same]
    exact ⟨subs, waits⟩

theorem StreamRecord.joined_reads {r : StreamRecord} (waits : ∀ g, hasFeed r.waiting g = true → hasFeed r.subs g = true) :
    hasFeed (r.joined f false).subs f = true ∧ hasFeed (r.joined f false).waiting f = false := by
  unfold StreamRecord.joined
  by_cases subs : hasFeed r.subs f = true
  · simp [subs, hasFeed_dropFeed]
  · simp [subs, hasFeed_addFeed]
    exact Bool.eq_false_iff.mpr (mt (waits f) subs)

theorem StreamRecord.joined_keeps {r : StreamRecord} {g : FeedId} (subs : hasFeed r.subs f = true)
    (reads : hasFeed r.waiting f = false) :
    hasFeed (r.joined g false).subs f = true ∧ hasFeed (r.joined g false).waiting f = false := by
  unfold StreamRecord.joined
  split <;> simp [hasFeed_addFeed, hasFeed_dropFeed, subs, reads]

end

/-- The three answers of a subscribe (R42, R43). -/
theorem State.subscribeFound_cases (s : State) (f : FeedId) (src : Source) (w : Bool) :
    (∃ k, s.store.openAt src = some k ∧
      s.subscribeFound f src w = { s with store := s.store.setStream k ((s.store.stream k).joined f w) }) ∨
    (∃ k, s.store.openAt src = none ∧ s.store.unusedAt = some k ∧
      s.subscribeFound f src w = { s with store := s.store.setStream k (StreamRecord.opened f src w) }) ∨
    (s.store.openAt src = none ∧ s.store.unusedAt = none ∧ s.subscribeFound f src w = s) := by
  unfold State.subscribeFound State.subscribe
  cases found : s.store.openAt src with
  | some k => exact .inl ⟨k, rfl, rfl⟩
  | none =>
    cases free : s.store.unusedAt with
    | some k => exact .inr (.inl ⟨k, rfl, rfl, rfl⟩)
    | none => exact .inr (.inr ⟨rfl, rfl, rfl⟩)

/-- A subscribe changes the stream table alone. -/
theorem State.subscribeFound_eq (s : State) (f : FeedId) (src : Source) (w : Bool) :
    s.subscribeFound f src w = { s with store := (s.subscribeFound f src w).store } ∧
    (s.subscribeFound f src w).store.cells = s.store.cells := by
  obtain ⟨k, -, eq⟩ | ⟨k, -, -, eq⟩ | ⟨-, -, eq⟩ := s.subscribeFound_cases f src w <;> rw [eq] <;> exact ⟨rfl, rfl⟩

theorem Store.unusedAt_some {st : Store} {k : Nat} (h : st.unusedAt = some k) : k < 128 ∧ (st.stream k).isOpen = false := by
  have free := List.find?_some h
  have low := List.mem_of_find?_eq_some h
  exact ⟨by simpa [Config.streamRecords] using low, by simpa using free⟩

theorem Store.unusedAt_none {st : Store} (h : st.unusedAt = none) {k : Nat} (low : k < 128) : (st.stream k).isOpen = true := by
  have used := List.find?_eq_none.mp h k (List.mem_range.mpr low)
  simpa using used

theorem State.streams_subscribeFound {s : State} (h : s.store.Streams) (f : FeedId) (src : Source) (w : Bool) :
    (s.subscribeFound f src w).store.Streams := by
  obtain ⟨k, found, eq⟩ | ⟨k, unopened, -, eq⟩ | ⟨-, -, eq⟩ := s.subscribeFound_cases f src w <;> rw [eq]
  · exact h.joined found f w
  · exact h.opened unopened k f w
  · exact h

/-- A feed that subscribes, as reading, with room in the table reads the stream. -/
theorem State.subscribeFound_reads {s : State} (h : s.store.Streams) {src : Source} (room : s.store.hasRoom src = true)
    (f : FeedId) : (s.subscribeFound f src false).store.Reads f src := by
  have after := State.streams_subscribeFound h f src false
  obtain ⟨k, found, eq⟩ | ⟨k, unopened, free, eq⟩ | ⟨unopened, full, -⟩ := s.subscribeFound_cases f src false
  · rw [eq] at after ⊢
    obtain ⟨low, used, names⟩ := Store.openAt_some found
    have reads := StreamRecord.joined_reads (f := f) (h.sound.2 k)
    refine ⟨k, h.openAt_written after low (StreamRecord.isOpen_of_hasFeed reads.1) ((StreamRecord.joined_src ..).trans names), ?_⟩
    rw [Store.setStream_stream h.wf]
    exact reads
  · rw [eq] at after ⊢
    obtain ⟨low, -⟩ := Store.unusedAt_some free
    have reads : hasFeed (oneFeed f) f = true := by simp [hasFeed_oneFeed]
    refine ⟨k, h.openAt_written after low (StreamRecord.isOpen_of_hasFeed reads) rfl, ?_⟩
    rw [Store.setStream_stream h.wf]
    exact ⟨reads, by simp [StreamRecord.opened, hasFeed]⟩
  · simp [Store.hasRoom, unopened, full] at room

theorem State.subscribeFound_keeps_reads {s : State} (h : s.store.Streams) {f g : FeedId} {src other : Source}
    (reads : s.store.Reads f src) : (s.subscribeFound g other false).store.Reads f src := by
  have after := State.streams_subscribeFound h g other false
  obtain ⟨k, found, eq⟩ | ⟨k, unopened, free, eq⟩ | ⟨-, -, eq⟩ := s.subscribeFound_cases g other false
  · rw [eq] at after ⊢
    refine h.reads_kept after (fun here subs waits => ⟨?_, StreamRecord.joined_keeps subs waits⟩) reads
    exact (StreamRecord.joined_src ..).trans (Store.openAt_some here).2.2
  · rw [eq] at after ⊢
    refine h.reads_kept after (fun _ subs _ => ?_) reads
    exact absurd (StreamRecord.isOpen_of_hasFeed subs) (ne_true_of_eq_false (Store.unusedAt_some free).2)
  · rw [eq]
    exact reads

theorem Store.mem_openSources {st : Store} {src : Source} :
    src ∈ st.openSources ↔ ∃ k, k < 128 ∧ (st.stream k).isOpen = true ∧ (st.stream k).src = src := by
  simp [Store.openSources, Store.openRecords, Config.streamRecords, and_assoc]

/-- A subscribe opens no stream but its own. -/
theorem State.subscribeFound_openSources {s : State} (h : s.store.Streams) {f : FeedId} {src x : Source} {w : Bool}
    (mem : x ∈ (s.subscribeFound f src w).store.openSources) : x = src ∨ x ∈ s.store.openSources := by
  obtain ⟨j, low, used, names⟩ := Store.mem_openSources.mp mem
  obtain ⟨k, found, eq⟩ | ⟨k, -, -, eq⟩ | ⟨-, -, eq⟩ := s.subscribeFound_cases f src w
  · rw [eq] at used names
    by_cases same : k = j
    · subst same
      rw [Store.setStream_stream h.wf, StreamRecord.joined_src] at names
      exact .inl (names.symm.trans (Store.openAt_some found).2.2)
    · rw [Store.setStream_stream_other _ _ same] at used names
      exact .inr (Store.mem_openSources.mpr ⟨j, low, used, names⟩)
  · rw [eq] at used names
    by_cases same : k = j
    · subst same
      rw [Store.setStream_stream h.wf] at names
      exact .inl names.symm
    · rw [Store.setStream_stream_other _ _ same] at used names
      exact .inr (Store.mem_openSources.mpr ⟨j, low, used, names⟩)
  · rw [eq] at used names
    exact .inr (Store.mem_openSources.mpr ⟨j, low, used, names⟩)

theorem Store.Streams.openSources_nodup {st : Store} (h : st.Streams) : st.openSources.Nodup := by
  have records : st.openRecords.Nodup := List.nodup_range.filter _
  refine (List.nodup_map_iff_inj_on records).mpr fun j hj k hk same => ?_
  simp only [Store.openRecords, Config.streamRecords, List.mem_filter, List.mem_range] at hj hk
  exact h.sound.1 j k hj.1 hk.1 hj.2 hk.2 same

theorem mem_distinct {α : Type} [DecidableEq α] {l : List α} {x : α} : x ∈ distinct l ↔ x ∈ l := by
  induction l with
  | nil => simp [distinct]
  | cons y l ih =>
    by_cases same : x = y
    · simp [distinct, same]
    · simp [distinct, same, ih]

/-- Where all streams fit with those that are open, the table has room for each (R81). -/
theorem Store.Streams.hasRoom_of_fits {st : Store} (h : st.Streams) {l : List Source}
    (fits : (distinct l).length ≤ Config.streamRecords) (opened : ∀ x ∈ st.openSources, x ∈ l) {src : Source} (mem : src ∈ l) :
    st.hasRoom src = true := by
  cases unopened : st.openAt src with
  | some k => simp [Store.hasRoom, unopened]
  | none =>
    cases full : st.unusedAt with
    | some k => simp [Store.hasRoom, full]
    | none =>
      have all : st.openSources.length = 128 := by
        rw [Store.openSources, List.length_map, Store.openRecords,
          (List.filter_eq_self (l := List.range Config.streamRecords)).mpr fun k low =>
            Store.unusedAt_none full (List.mem_range.mp low), List.length_range]
        rfl
      have apart : src ∉ st.openSources := fun mem => by
        obtain ⟨k, low, used, names⟩ := Store.mem_openSources.mp mem
        exact Store.openAt_none unopened low used names
      have distinctly : (src :: st.openSources).Nodup := List.nodup_cons.mpr ⟨apart, h.openSources_nodup⟩
      have within : (src :: st.openSources) ⊆ distinct l := List.cons_subset.mpr
        ⟨mem_distinct.mpr mem, fun x hx => mem_distinct.mpr (opened x hx)⟩
      have count := (List.subperm_of_subset distinctly within).length_le
      rw [List.length_cons, all] at count
      exact absurd (count.trans fits) (by decide)

/-- Every stream of a list that fits is read after it was subscribed to in turn (R81). -/
theorem State.subscribeList_reads {l : List Source} {f : FeedId} {fit : List Source}
    (fits : (distinct fit).length ≤ Config.streamRecords) (s : State) (h : s.store.Streams)
    (opened : ∀ x ∈ s.store.openSources, x ∈ fit) (within : ∀ x ∈ l, x ∈ fit) :
    let t := l.foldl (fun t src => t.subscribeFound f src false) s
    (∀ src ∈ l, t.store.Reads f src) ∧ ∀ src, s.store.Reads f src → t.store.Reads f src := by
  induction l generalizing s with
  | nil => exact ⟨nofun, fun _ => id⟩
  | cons x l ih =>
    have room := h.hasRoom_of_fits fits opened (within x (.head _))
    obtain ⟨all, kept⟩ := ih (s.subscribeFound f x false) (State.streams_subscribeFound h f x false)
      (fun y mem => (State.subscribeFound_openSources h mem).elim (fun same => same ▸ within x (.head _)) (opened y))
      fun y mem => within y (.tail _ mem)
    refine ⟨fun y mem => ?_, fun y reads => kept y (State.subscribeFound_keeps_reads h reads)⟩
    rcases List.mem_cons.mp mem with rfl | mem
    · exact kept y (State.subscribeFound_reads h room f)
    · exact all y mem

theorem State.subscribeEntries_eq (s : State) (f : FeedId) :
    s.subscribeEntries f = { s with store := (s.subscribeEntries f).store } ∧
    (s.subscribeEntries f).store.cells = s.store.cells := by
  have walk : ∀ (l : List Source) (s : State),
      l.foldl (fun t src => t.subscribeFound f src false) s =
        { s with store := (l.foldl (fun t src => t.subscribeFound f src false) s).store } ∧
      (l.foldl (fun t src => t.subscribeFound f src false) s).store.cells = s.store.cells := fun l => by
    induction l with
    | nil => exact fun s => ⟨rfl, rfl⟩
    | cons x l ih =>
      intro s
      obtain ⟨frame, cells⟩ := s.subscribeFound_eq f x false
      obtain ⟨later, same⟩ := ih (s.subscribeFound f x false)
      refine ⟨?_, same.trans cells⟩
      rw [List.foldl_cons, later, frame]
  exact walk _ s

/-- A feed whose streams fit reads every live entry's source after it subscribed to them (R81). -/
theorem State.subscribeEntries_reads {s : State} {f : FeedId} (h : s.store.Streams) (fits : s.streamsFit f = true) {e : Nat}
    {src : Source} (live : e ∈ s.liveEntries f) (holds : (s.live f e).curSrc = some src) :
    (s.subscribeEntries f).store.Reads f src := by
  have wanted : src ∈ s.wantedSources f := List.mem_filterMap.mpr ⟨e, live, holds⟩
  exact (State.subscribeList_reads (of_decide_eq_true fits) s h (fun x mem => List.mem_append_right _ mem)
    (fun x mem => List.mem_append_left _ mem)).1 src wanted

end Sys2Proof.Machine
end

section
/-! PROOFS. Changes of feed state by request and at a cycle boundary (R80 to R82, R85). -/

namespace Sys2Proof.Machine

theorem State.setFeed_self (s : State) (f : FeedId) : s.setFeed f (s.feed f) = s := by
  simp [State.setFeed, State.feed, upd, Vector.get]

theorem State.setFeed_setFeed (s : State) (f : FeedId) (x y : Feed) : (s.setFeed f x).setFeed f y = s.setFeed f y := by
  simp [State.setFeed]

/-- The TestTag a SET-FEED leaves (R80). -/
def Feed.tagged (x : Feed) (w : BitVec 16) : Feed := { x with testTag := if w = 0xFFFF then x.testTag else w.setWidth 12 }

theorem State.giveTestTag_eq (s : State) (f : FeedId) (w : BitVec 16) :
    s.giveTestTag f (if w = 0xFFFF then none else some (w.setWidth 12)) = s.setFeed f ((s.feed f).tagged w) := by
  unfold State.giveTestTag Feed.tagged
  by_cases given : w = 0xFFFF
  · simp only [if_pos given]
    exact (s.setFeed_self f).symm
  · simp only [if_neg given]

/-- What SET-FEED does where its fields lie in their ranges (R80). -/
theorem State.applySetFeed_eq {s : State} {feed mode : BitVec 8} {testTag : BitVec 16} {f : FeedId} {m : FeedMode}
    (hf : feed.toNat = f.val) (hm : feedModeOf mode = some m) (good : testTag.toNat ≤ 4093 ∨ testTag = 0xFFFF) :
    s.applySetFeed feed mode testTag =
      if s.feedChangeFits f m then ((s.setFeed f ((s.feed f).tagged testTag)).changeFeed f m, .ok, []) else s.refuse .noRoom := by
  rw [State.applySetFeed, feedOf_eq_some hf, hm, optTagOf_some good, ← State.giveTestTag_eq]

theorem State.applySetFeed_range {s : State} {feed mode : BitVec 8} {testTag : BitVec 16}
    (bad : 7 < feed.toNat ∨ ¬ (testTag.toNat ≤ 4093 ∨ testTag = 0xFFFF)) :
    s.applySetFeed feed mode testTag = s.refuse .range := by
  unfold State.applySetFeed
  rcases bad with high | outside
  · rw [feedOf_eq_none high]
  · rw [optTagOf_none outside]
    cases feedOf feed <;> cases feedModeOf mode <;> rfl

theorem State.changeFeed_pending {s : State} {f : FeedId} {x : Feed} {m : FeedMode} {p : PendMode}
    (change : (s.setFeed f x).changeFeed f m = (s.setFeed f x).setPendMode f p) :
    (s.setFeed f x).changeFeed f m = s.setFeed f { x with pendMode := p } := by
  rw [change, State.setPendMode, State.setFeed_feed, State.setFeed_setFeed]

theorem State.judge_setFeed (s : State) (tag : BitVec 16) (feed mode : BitVec 8) (testTag : BitVec 16) :
    s.judgeRequest { tag := tag, kind := 0x40, request := .setFeed feed mode testTag } =
      answered (s.applySetFeed feed mode testTag) := State.judgeRequest_wellFormed rfl

/-- A feed that is enabled, or leaves TEST, reads the source of every live entry, and nothing else of the store moves. -/
theorem State.subscribeEntries_setFeed {s : State} {f : FeedId} (x : Feed) (whole : s.wf = true) (sound : s.store.streamsSound)
    (fits : s.streamsFit f = true) :
    let t := (s.setFeed f x).subscribeEntries f
    t = { s with feeds := upd s.feeds f x, store := t.store } ∧ t.store.cells = s.store.cells ∧
    ∀ e src, e ∈ s.liveEntries f → (s.live f e).curSrc = some src → t.store.Reads f src := by
  obtain ⟨store, -, -⟩ := s.wf_iff.mp whole
  obtain ⟨frame, cells⟩ := (s.setFeed f x).subscribeEntries_eq f
  exact ⟨frame, cells, fun e src live holds => State.subscribeEntries_reads (s := s.setFeed f x) ⟨store, sound⟩ fits live holds⟩

/-- Settles O45: the table of R80 for the modes RUNNING and TEST. -/
theorem setFeedModesRunningAndTest : Obligations.SetFeedModesRunningAndTest := by
  unfold Obligations.SetFeedModesRunningAndTest
  refine ⟨fun tag feed testTag s ready => ?_, fun tag feed testTag s ready => ?_⟩
  · have judged := s.judge_setFeed tag feed 1 testTag
    intro request refused tagGood
    refine ⟨fun bad => ?_, fun f hf good => ?_⟩
    · rw [State.applySetFeed_range bad] at judged
      exact exec_answered rfl ready judged rfl
    · intro x done
      rw [State.applySetFeed_eq hf rfl good] at judged
      have state : ((s.setFeed f ((s.feed f).tagged testTag)).feed f).state = (s.feed f).state := by
        rw [State.setFeed_feed]
        rfl
      have fits (room : s.feedNeeds f = true ∨ s.streamsFit f = true) : s.feedChangeFits f .running = true := by
        rcases room with h | h <;> simp [State.feedChangeFits, h]
      have pends {p : PendMode} (room : s.feedNeeds f = true ∨ s.streamsFit f = true)
          (change : (s.setFeed f ((s.feed f).tagged testTag)).changeFeed f .running =
            (s.setFeed f ((s.feed f).tagged testTag)).setPendMode f p) : done (s.setFeed f { x with pendMode := p }) := by
        rw [if_pos (fits room), State.changeFeed_pending change] at judged
        exact exec_answered rfl ready judged rfl
      refine ⟨fun off crowded => ?_, fun on => ?_, fun test room => ?_, fun off room whole sound => ?_⟩
      · have rests : s.feedNeeds f = false := by rcases off with h | h <;> simp [State.feedNeeds, h]
        rw [if_neg (by simp [State.feedChangeFits, rests, crowded])] at judged
        exact exec_answered rfl ready judged rfl
      · have needs : s.feedNeeds f = true := by rcases on with h | h <;> simp [State.feedNeeds, h]
        refine pends (.inl needs) ?_
        rcases on with h | h <;> simp only [State.changeFeed, state, h]
      · exact pends (.inr room) (by simp only [State.changeFeed, state, test])
      · have enabled : (s.setFeed f ((s.feed f).tagged testTag)).changeFeed f .running =
            (s.setFeed f { (s.feed f).tagged testTag with state := .starting, pendMode := .none }).subscribeEntries f := by
          have enables : (s.setFeed f ((s.feed f).tagged testTag)).changeFeed f .running =
              (s.setFeed f ((s.feed f).tagged testTag)).enableFeed f := by simp only [State.changeFeed, state, off]
          rw [enables, State.enableFeed, State.setFeed_feed, State.setFeed_setFeed]
        rw [if_pos (fits (.inr room)), enabled] at judged
        obtain ⟨frame, cells, reads⟩ := State.subscribeEntries_setFeed
          { (s.feed f).tagged testTag with state := .starting, pendMode := .none } whole sound room
        refine ⟨_, exec_answered rfl ready judged (by rw [frame]), ?_, by rw [frame]; rfl, cells, reads⟩
        rw [frame]
  · have judged := s.judge_setFeed tag feed 2 testTag
    refine ⟨fun bad => ?_, fun f hf good => ?_⟩
    · rw [State.applySetFeed_range (bad.imp id fun ⟨high, given⟩ h => h.elim (Nat.not_le.mpr high) given)] at judged
      exact exec_answered rfl ready judged rfl
    · have state : ((s.setFeed f ((s.feed f).tagged testTag)).feed f).state = (s.feed f).state := by
        rw [State.setFeed_feed]
        rfl
      have change : (s.setFeed f ((s.feed f).tagged testTag)).changeFeed f .test =
          (s.setFeed f ((s.feed f).tagged testTag)).setPendMode f (if (s.feed f).state = .test then .none else .test) := by
        unfold State.changeFeed
        rw [state]
        cases (s.feed f).state <;> rfl
      rw [State.applySetFeed_eq hf rfl good, if_pos (by simp [State.feedChangeFits]), State.changeFeed_pending change] at judged
      exact exec_answered rfl ready judged rfl

theorem exec_feedBecomesRunning (s : State) (f : FeedId) :
    exec (.feedBecomesRunning f) s = .next (if (s.feed f).state = .starting then s.changeAtCycle f else s) := rfl

theorem exec_feedLeavesTest (s : State) (f : FeedId) :
    exec (.feedLeavesTest f) s = .next (if (s.feed f).state = .test ∧ s.streamsFit f then s.changeAtCycle f else s) := rfl

/-- Settles O35: a feed starts to run, or leaves TEST where its streams fit. -/
theorem feedsRunFromCycleBoundary : Obligations.FeedsRunFromCycleBoundary := by
  unfold Obligations.FeedsRunFromCycleBoundary
  refine ⟨fun s f owed starting stays => ?_, fun s f other => ?_, fun s f owed test asked fits whole sound => ?_,
    fun s f other => ?_⟩
  · have stays : s.testComes f = false := by
      rcases stays with h | h <;> simp [State.testComes, h]
    have state : (State.feed { s with due := { s.due with cycleFeeds := dropFeed s.due.cycleFeeds f } } f).state = .starting :=
      starting
    rw [exec_feedBecomesRunning, if_pos starting]
    simp only [State.changeAtCycle, owed, stays, Bool.not_false, Bool.and_self, if_true, state]
    rfl
  · rw [exec_feedBecomesRunning]
    by_cases starting : (s.feed f).state = .starting
    · obtain ⟨mode, owed⟩ := other.resolve_left (not_not_intro starting)
      have comes : s.testComes f = true := by simp [State.testComes, starting, mode, owed]
      rw [if_pos starting, State.changeAtCycle, if_neg (by simp [comes])]
    · rw [if_neg starting]
  · have stays : s.testComes f = false := by simp [State.testComes, test]
    have leaves : s.changeAtCycle f =
        State.leaveTest { s with due := { s.due with cycleFeeds := dropFeed s.due.cycleFeeds f } } f := by
      have state : (State.feed { s with due := { s.due with cycleFeeds := dropFeed s.due.cycleFeeds f } } f).state = .test := test
      have mode : (State.feed { s with due := { s.due with cycleFeeds := dropFeed s.due.cycleFeeds f } } f).pendMode = .running :=
        asked
      have room : State.streamsFit { s with due := { s.due with cycleFeeds := dropFeed s.due.cycleFeeds f } } f = true := fits
      simp only [State.changeAtCycle, owed, stays, Bool.not_false, Bool.and_self, if_true, state, mode, room]
    obtain ⟨frame, cells, reads⟩ := State.subscribeEntries_setFeed
      (s := { s with due := { s.due with cycleFeeds := dropFeed s.due.cycleFeeds f } })
      { s.feed f with state := .running, pendMode := .none, injectPending := false } whole sound fits
    refine ⟨State.leaveTest { s with due := { s.due with cycleFeeds := dropFeed s.due.cycleFeeds f } } f,
      by rw [exec_feedLeavesTest, if_pos ⟨test, fits⟩, leaves], ?_, fun g other => ?_, ?_, cells, ?_, ?_, reads⟩
    all_goals unfold State.leaveTest
    · exact (congrArg (State.feed · f) frame).trans (upd_get_same ..)
    · exact (congrArg (State.feed · g) frame).trans (upd_get_other _ _ (Ne.symm other))
    · exact (congrArg State.maps frame).trans rfl
    · exact (congrArg State.ssu frame).trans rfl
    · exact (congrArg State.mlt frame).trans rfl
  · rw [exec_feedLeavesTest, if_neg fun ⟨test, fits⟩ => other.elim (absurd test) fun crowded => nomatch crowded.symm.trans fits]

end Sys2Proof.Machine
end

section
/-! SUPPORT. What a release does to the Holders, the slot and the pool (R52), and numbers in bytes. -/

namespace Sys2Proof.Machine

theorem feedSet_ext {a b : FeedSet} (h : ∀ f, hasFeed a f = hasFeed b f) : a = b :=
  BitVec.eq_of_getLsbD_eq fun i hi => h ⟨i, hi⟩

theorem dropFeed_eq_zero_iff {fs : FeedSet} {f : FeedId} (mem : hasFeed fs f = true) : dropFeed fs f = 0 ↔ fs = oneFeed f := by
  have alone : ∀ f, dropFeed (oneFeed f) f = 0 := by decide
  refine ⟨fun none => feedSet_ext fun g => ?_, fun only => only ▸ alone f⟩
  · rw [hasFeed_oneFeed]
    by_cases same : g = f
    · rw [same, mem, decide_eq_true rfl]
    · have gone : hasFeed (dropFeed fs f) g = false := by rw [none]; simp [hasFeed]
      rw [hasFeed_dropFeed, decide_eq_true (show g ≠ f from same), Bool.and_true] at gone
      rw [gone, decide_eq_false same]

section
variable {s : State} {f : FeedId} {slot : Nat} {c : CellRecord}

/-- The last holder's release frees the slot (R52). -/
theorem State.release_last (stored : s.store.cell slot = some c) (only : c.holders = oneFeed f) :
    s.release f slot = State.judgeCongestion { s with store := s.store.free slot c } c.port := by
  have mem : hasFeed c.holders f = true := by rw [only, hasFeed_oneFeed, decide_eq_true rfl]
  simp only [State.release, stored, if_pos mem, if_pos ((dropFeed_eq_zero_iff mem).mpr only)]

/-- The release of a cell that another feed holds too (R52). -/
theorem State.release_shared (stored : s.store.cell slot = some c) (mem : hasFeed c.holders f = true)
    (shared : c.holders ≠ oneFeed f) :
    s.release f slot =
      { s with store := { s.store with cells := Table.put s.store.cells slot { c with holders := dropFeed c.holders f } } } := by
  simp only [State.release, stored, if_pos mem, if_neg (mt (dropFeed_eq_zero_iff mem).mp shared)]

theorem Store.holds_of_cell {st : Store} (stored : st.cell slot = some c) (f : FeedId) :
    st.holds f slot = hasFeed c.holders f := by
  rw [Store.holds, stored]

theorem Store.holds_of_empty {st : Store} (empty : st.cell slot = none) (f : FeedId) : st.holds f slot = false := by
  rw [Store.holds, empty]

theorem State.release_unheld (free : s.store.holds f slot = false) : s.release f slot = s := by
  unfold State.release
  split
  · rfl
  · next c stored =>
    rw [Store.holds_of_cell stored] at free
    rw [if_neg (ne_true_of_eq_false free)]

/-- After its release a feed holds the cell no more, and no other holding moves (R52). -/
theorem State.release_holds (store : s.store.wf = true) (f g : FeedId) (slot k : Nat) :
    (s.release f slot).store.holds g k = (s.store.holds g k && !decide (g = f ∧ k = slot)) := by
  by_cases here : k = slot
  · subst here
    cases stored : s.store.cell k with
    | none =>
      rw [State.release_unheld (Store.holds_of_empty stored f), Store.holds_of_empty stored]
      rfl
    | some c =>
      have held : s.store.holds g k = hasFeed c.holders g := Store.holds_of_cell stored g
      have only : decide (g = f ∧ k = k) = decide (g = f) := by simp
      rw [held, only, ← decide_not, ← hasFeed_dropFeed]
      by_cases mem : hasFeed c.holders f = true
      · by_cases last : c.holders = oneFeed f
        · have empty : (s.release f k).store.cell k = none := by
            rw [State.release_last stored last, State.judgeCongestion_cell]
            exact (Store.free_cell store k k c).trans (if_pos rfl)
          rw [Store.holds_of_empty empty, (dropFeed_eq_zero_iff mem).mpr last]
          simp [hasFeed]
        · rw [State.release_shared stored mem last]
          have left : Table.find (Table.put s.store.cells k { c with holders := dropFeed c.holders f }) k =
              some { c with holders := dropFeed c.holders f } := Table.find_put_same ..
          exact Store.holds_of_cell
            (st := { s.store with cells := Table.put s.store.cells k { c with holders := dropFeed c.holders f } }) left g
      · have free : s.store.holds f k = false := (Store.holds_of_cell stored f).trans (Bool.eq_false_iff.mpr mem)
        rw [State.release_unheld free, held, hasFeed_dropFeed]
        by_cases same : g = f
        · rw [same, Bool.eq_false_iff.mpr mem]
          rfl
        · rw [decide_eq_true same, Bool.and_true]
  · have cell : (s.release f slot).store.cell k = s.store.cell k := s.release_cell_other f (Ne.symm here)
    rw [decide_eq_false fun h => here h.2, Bool.not_false, Bool.and_true, Store.holds, Store.holds, cell]

end

theorem numberOf_acc (bs : List Byte) (a : Nat) :
    bs.foldl (fun a b => a * 256 + b.toNat) a = a * 256 ^ bs.length + numberOf bs := by
  induction bs generalizing a with
  | nil => simp [numberOf]
  | cons b bs ih =>
    have first : numberOf (b :: bs) = (0 * 256 + b.toNat) * 256 ^ bs.length + numberOf bs := ih (0 * 256 + b.toNat)
    rw [List.foldl_cons, ih, first, List.length_cons, Nat.pow_succ]
    ring

theorem numberOf_cons (b : Byte) (bs : List Byte) : numberOf (b :: bs) = b.toNat * 256 ^ bs.length + numberOf bs := by
  rw [numberOf, List.foldl_cons, numberOf_acc]
  simp

theorem numberOf_lt (bs : List Byte) : numberOf bs < 256 ^ bs.length := by
  induction bs with
  | nil => simp [numberOf]
  | cons b bs ih =>
    have digit := b.isLt
    rw [numberOf_cons, List.length_cons, Nat.pow_succ]
    calc b.toNat * 256 ^ bs.length + numberOf bs
        < b.toNat * 256 ^ bs.length + 256 ^ bs.length := Nat.add_lt_add_left ih _
      _ = (b.toNat + 1) * 256 ^ bs.length := by ring
      _ ≤ 256 * 256 ^ bs.length := Nat.mul_le_mul_right _ digit
      _ = 256 ^ bs.length * 256 := Nat.mul_comm ..

theorem numberOf_bytesOf (n v : Nat) : numberOf (bytesOf n v) = v % 256 ^ n := by
  induction n with
  | zero => simp [bytesOf, numberOf, Nat.mod_one]
  | succ n ih =>
    have top : v % 256 ^ (n + 1) = v % 256 ^ n + 256 ^ n * (v / 256 ^ n % 2 ^ 8) := (congrArg (v % ·) (Nat.pow_succ ..)).trans Nat.mod_mul
    rw [bytesOf, numberOf_cons, ih, bytesOf_length, BitVec.toNat_ofNat, top, Nat.add_comm, Nat.mul_comm]

end Sys2Proof.Machine
end

section
/-! PROOFS. The age test of a head cell (R88), and the cell that a chosen entry sends (R91, R95 to R98). -/

namespace Sys2Proof.Machine

theorem State.isStale_of_cell {s : State} {slot : Nat} {c : CellRecord} (stored : s.store.cell slot = some c) (tick : BitVec 32) :
    s.isStale slot tick = decide ((s.port c.port).settings.maxAge < (tick - c.arriveTick).toNat) := by
  rw [State.isStale, stored]
  rfl

theorem State.evaluateHead_kept {s : State} {f : FeedId} {e : Nat} (state : (s.live f e).estate = .onAir ∨ (s.live f e).estate = .fallback)
    (tick : BitVec 32) : State.evaluateHead tick f s e = s.freshen f e tick := by
  rcases state with h | h <;> simp only [State.evaluateHead, h]

/-- A cell that a feed may reach is held by it. -/
theorem State.holds_of_mem_cellsOf {s : State} {f : FeedId} {e slot : Nat} (mem : slot ∈ s.cellsOf f e) :
    s.store.holds f slot = true := by
  unfold State.cellsOf Store.holding at mem
  split at mem
  · split at mem
    · exact (List.mem_filter.mp mem).2
    · nomatch mem
  · nomatch mem

/-- Settles O54: a head cell within MaxAge stays, an older one is released for the feed alone and counted. -/
theorem staleHeadCellDiscarded : Obligations.StaleHeadCellDiscarded := by
  unfold Obligations.StaleHeadCellDiscarded
  intro s f e slot c rest tick whole pool state cells stored
  dsimp only
  have stale := State.isStale_of_cell stored tick
  rw [State.evaluateHead_kept state, State.freshen, cells, State.dropStaleRun, stale]
  refine ⟨fun fresh => if_neg (by rw [decide_eq_true_eq]; exact Nat.not_lt.mpr fresh), fun old last => ?_⟩
  have mem : hasFeed c.holders f = true :=
    (Store.holds_of_cell stored f).symm.trans (State.holds_of_mem_cellsOf (e := e) (by rw [cells]; exact .head _))
  rw [if_pos (decide_eq_true old), last, State.dropStaleRun, State.dropStale, stored]
  dsimp only
  have frame := stored_release s f slot
  obtain ⟨store, -, -⟩ := s.wf_iff.mp whole
  have holds := State.release_holds store f
  have counted := (s.release f slot).count_eq (.port c.port .stale) 1
  refine ⟨?_, fun d other => ?_, ?_, fun g k other => ?_, fun only => ?_, fun shared => ?_, ?_, ?_, ?_, ?_⟩
  · rw [State.count_counter, frame.counter]
  · rw [State.count_counter_other _ other, frame.counter]
  · rw [counted]
    exact (holds ..).trans (by simp)
  · rw [counted]
    refine (holds ..).trans ?_
    rw [decide_eq_false fun ⟨h, h'⟩ => other.elim (absurd h) (absurd h'), Bool.not_false, Bool.and_true]
  · rw [counted, State.release_last stored only]
    obtain ⟨-, -, inPool⟩ := pool
    have low : slot < 16384 := inPool slot (by rw [stored]; rfl)
    refine ⟨?_, ?_, ?_⟩
    · rw [State.judgeCongestion_cell]
      exact (Store.free_cell store slot slot c).trans (if_pos rfl)
    · rw [State.judgeCongestion_store]
      exact s.store.pool.push_stack low
    · rw [State.judgeCongestion_store]
      exact upd_get_same ..
  · rw [counted, State.release_shared stored mem shared]
    exact ⟨rfl, rfl⟩
  · rw [counted]
    exact frame.maps
  · rw [counted]
    exact frame.feeds
  · rw [counted]
    exact frame.ports
  · rw [counted]
    exact frame.ssu

theorem limitedCorrection_eq (raw : Int) (limit : Nat) : limitedCorrection raw limit = max (-(limit : Int)) (min raw limit) := by
  unfold limitedCorrection
  split
  · omega
  · split <;> omega

theorem movedMark_drop {payload : List Byte} (k : Int) : (movedMark payload k).drop 5 = payload.drop 5 := by
  rw [movedMark, List.drop_left' (bytesOf_length ..)]

theorem movedMark_length {payload : List Byte} (whole : payload.length = 156) (k : Int) : (movedMark payload k).length = 156 := by
  rw [movedMark, List.length_append, bytesOf_length, List.length_drop, whole]

/-- The time mark moves by K, mod 2^40 (R98). -/
theorem movedMark_number {payload : List Byte} (whole : payload.length = 156) (k : Int) :
    numberOf ((movedMark payload k).take 5) = (((numberOf (payload.take 5) : Int) + k) % 2 ^ 40).toNat := by
  have small : numberOf (payload.take 5) < 2 ^ 40 := by
    have bound := numberOf_lt (payload.take 5)
    rw [List.length_take, whole] at bound
    exact bound
  have mark : (markOf payload).toNat = numberOf (payload.take 5) := by
    rw [markOf, BitVec.toNat_ofNat, fieldAt, List.drop_zero]
    exact Nat.mod_eq_of_lt small
  rw [movedMark, List.take_left' (bytesOf_length ..), numberOf_bytesOf]
  rw [Nat.mod_eq_of_lt (show _ < 256 ^ 5 from (markOf payload + BitVec.ofInt 40 k).isLt), BitVec.toNat_add, mark, BitVec.toNat_ofInt]
  omega

/-- A count that is made or not. -/
def State.countIf (s : State) (p : Prop) [Decidable p] (c : CounterId) : State := if p then s.count c 1 else s

theorem State.countIf_eq (s : State) (p : Prop) [Decidable p] (c : CounterId) :
    s.countIf p c = { s with counters := (s.countIf p c).counters, mlt := (s.countIf p c).mlt } := by
  unfold State.countIf
  split
  · exact s.count_eq c 1
  · rfl

theorem State.countIf_counter (s : State) (p : Prop) [Decidable p] (c : CounterId) :
    (s.countIf p c).counter c = if p then min (s.counter c + 1) 65535 else s.counter c := by
  unfold State.countIf
  split
  · exact s.count_counter c 1
  · rfl

theorem State.sendSelected_eq {s : State} {f : FeedId} {e slot : Nat} {c : CellRecord} (tick : BitVec 32)
    (chosen : s.select f = some e) (head : s.headOf f e = some slot) (stored : s.store.cell slot = some c) :
    s.sendSelected f tick = s.sendEntry f e slot c tick := by
  simp only [State.sendSelected, chosen, head, stored]

/-- Settles O53: the cell of the chosen entry, its credit and counts, and its release. -/
theorem chosenCellFormedAndReleased : Obligations.ChosenCellFormedAndReleased := by
  unfold Obligations.ChosenCellFormedAndReleased
  intro s f tick e slot c whole chosen head stored length
  rw [State.sendSelected_eq tick chosen head stored]
  intro t v limit raw shift
  have corrected : s.correctionOf c tick = shift := limitedCorrection_eq ..
  have uncorrected : s.rawOf c tick = raw := rfl
  have sent : t =
      State.release
        (State.countIf ((s.emit f (some (s.departCell f e c tick))).setLive f e
            { v with
              credit := v.credit - s.unitCost, outCont := v.outCont + 1, discPending := v.discPending && !c.hdr.marked })
          (c.hdr.marked = true ∧ s.correctionOf c tick ≠ s.rawOf c tick) (.feed f .clamp)) f slot := rfl
  generalize ha : (s.emit f (some (s.departCell f e c tick))).setLive f e
    { v with credit := v.credit - s.unitCost, outCont := v.outCont + 1, discPending := v.discPending && !c.hdr.marked } = a at sent
  have counted := a.countIf_eq (c.hdr.marked = true ∧ s.correctionOf c tick ≠ s.rawOf c tick) (.feed f .clamp)
  have counter := a.countIf_counter (c.hdr.marked = true ∧ s.correctionOf c tick ≠ s.rawOf c tick) (.feed f .clamp)
  generalize a.countIf (c.hdr.marked = true ∧ s.correctionOf c tick ≠ s.rawOf c tick) (.feed f .clamp) = b at sent counted counter
  have frame : Stored b t := sent ▸ stored_release b f slot
  have feeds : t.feeds = upd s.feeds f { s.feed f with sent := some (s.departCell f e c tick) } := by
    rw [frame.feeds, counted, ← ha]
    rfl
  have payload : (s.departCell f e c tick).payload = if c.hdr.marked then movedMark c.payload shift else c.payload := by
    rw [← corrected]
    rfl
  obtain ⟨store, -, -⟩ := s.wf_iff.mp whole
  refine ⟨s.departCell f e c tick, ?_, fun g other => ?_, rfl, rfl, rfl, rfl, rfl, rfl, rfl, ?_, ?_, ?_, ?_, ?_, ?_⟩
  · rw [State.feed, feeds, upd_get_same]
  · rw [State.feed, feeds, upd_get_other _ _ (Ne.symm other)]
    rfl
  · rw [payload]
    split
    · exact movedMark_drop _
    · rfl
  · rw [payload]
    split
    · exact movedMark_length length _
    · exact length
  · rw [payload]
    split
    · exact movedMark_number length _
    · rfl
  · rw [frame.live, counted, ← ha]
    exact State.setLive_live _ f (State.live_sorted whole f) e _
  · rw [frame.counter, counter, corrected, uncorrected, ← ha]
    rfl
  · have stores : b.store = s.store := by rw [counted, ← ha]; rfl
    rw [sent, State.release_holds (stores ▸ store)]
    simp

end Sys2Proof.Machine
end

section
/-! SUPPORT. Withdraws and the stream table: a feed that has withdrawn from every stream subscribes to none (R44, R83). -/

namespace Sys2Proof.Machine

section
variable {st u : Store} {f : FeedId} {src : Source}

theorem Store.subscribed_iff (sound : st.streamsSound) :
    st.subscribed f src = true ↔ ∃ k, k < 128 ∧ (st.stream k).src = src ∧ hasFeed (st.stream k).subs f = true := by
  unfold Store.subscribed
  constructor
  · intro h
    split at h
    · next k found =>
      obtain ⟨low, -, names⟩ := Store.openAt_some found
      exact ⟨k, low, names, h⟩
    · nomatch h
  · rintro ⟨k, low, rfl, subs⟩
    rw [Store.openAt_eq sound low (StreamRecord.isOpen_of_hasFeed subs)]
    exact subs

/-- A record's stream, subscribers and waiting feeds stay in every record. -/
def Store.SameStreams (st u : Store) : Prop :=
  ∀ j, (u.stream j).src = (st.stream j).src ∧ (u.stream j).subs = (st.stream j).subs ∧
    (u.stream j).waiting = (st.stream j).waiting

theorem Store.SameStreams.refl (st : Store) : st.SameStreams st := fun _ => ⟨rfl, rfl, rfl⟩

theorem Store.SameStreams.trans {v : Store} (h : st.SameStreams u) (h' : u.SameStreams v) : st.SameStreams v := fun j => by
  obtain ⟨src, subs, waiting⟩ := h j
  obtain ⟨src', subs', waiting'⟩ := h' j
  exact ⟨src'.trans src, subs'.trans subs, waiting'.trans waiting⟩

theorem Store.Streams.leave (h : st.Streams) {k : Nat} (low : k < 128) (f : FeedId) : (st.leave k f).Streams := by
  obtain ⟨unique, waits⟩ := h.sound
  unfold Store.leave
  dsimp only
  split
  · refine ⟨Store.setStream_wf h.wf .., Store.streamsSound_setStream h.wf h.sound k _ (fun g hg => ?_) fun used => ?_⟩
    · simp [StreamRecord.unused, hasFeed] at hg
    · simp [StreamRecord.unused, StreamRecord.isOpen] at used
  · refine ⟨Store.setStream_wf h.wf .., Store.streamsSound_setStream h.wf h.sound k _ (fun g hg => ?_)
      fun used j hj other usedj same => other (unique j k hj low usedj ?_ same)⟩
    · simp only [hasFeed_dropFeed, Bool.and_eq_true] at hg ⊢
      exact ⟨waits k g hg.1, hg.2⟩
    · simp only [StreamRecord.isOpen, ne_eq, decide_not, Bool.not_eq_true', decide_eq_false_iff_not] at used ⊢
      exact fun none => used (by rw [none]; simp [dropFeed])

theorem Store.leave_subs (whole : st.wf = true) (k : Nat) (f : FeedId) : hasFeed ((st.leave k f).stream k).subs f = false := by
  unfold Store.leave
  dsimp only
  split
  · rw [Store.setStream_stream whole]
    simp [StreamRecord.unused, hasFeed]
  · rw [Store.setStream_stream whole]
    simp [hasFeed_dropFeed]

theorem Store.leave_stream_other {k j : Nat} (other : k ≠ j) (f : FeedId) : (st.leave k f).stream j = st.stream j := by
  unfold Store.leave
  dsimp only
  split <;> exact Store.setStream_stream_other _ _ other

end

theorem State.release_sameStreams {s : State} (store : s.store.wf = true) (f : FeedId) (slot : Nat) :
    s.store.SameStreams (s.release f slot).store ∧ (s.release f slot).store.wf = true := by
  cases stored : s.store.cell slot with
  | none =>
    rw [State.release_unheld (Store.holds_of_empty stored f)]
    exact ⟨.refl _, store⟩
  | some c =>
    by_cases mem : hasFeed c.holders f = true
    · by_cases last : c.holders = oneFeed f
      · rw [State.release_last stored last]
        refine ⟨fun j => ?_, ?_⟩
        · rw [State.judgeCongestion_stream]
          exact Store.free_stream_subs store slot c j
        · rw [State.judgeCongestion_store]
          exact Store.free_wf store slot c
      · rw [State.release_shared stored mem last]
        obtain ⟨cells, streams⟩ := (Store.wf_iff _).mp store
        exact ⟨.refl _, (Store.wf_iff _).mpr ⟨Table.sorted_put cells .., streams⟩⟩
    · rw [State.release_unheld ((Store.holds_of_cell stored f).trans (Bool.eq_false_iff.mpr mem))]
      exact ⟨.refl _, store⟩

theorem State.releaseAll_sameStreams {s : State} (store : s.store.wf = true) (f : FeedId) (l : List Nat) :
    s.store.SameStreams (s.releaseAll f l).store ∧ (s.releaseAll f l).store.wf = true := by
  induction l generalizing s with
  | nil => exact ⟨.refl _, store⟩
  | cons k l ih =>
    obtain ⟨same, store⟩ := State.release_sameStreams store f k
    obtain ⟨later, store⟩ := ih store
    exact ⟨same.trans later, store⟩

/-- A feed that withdraws from a stream subscribes to it no more, and to no stream that it had not (R44). -/
theorem State.withdraw_leaves {s : State} (h : s.store.Streams) (f : FeedId) (src : Source) :
    (s.withdraw f src).store.Streams ∧
    ∀ x, (s.withdraw f src).store.subscribed f x = true → s.store.subscribed f x = true ∧ x ≠ src := by
  have outside (free : s.store.subscribed f src = false) :
      s.store.Streams ∧ ∀ x, s.store.subscribed f x = true → s.store.subscribed f x = true ∧ x ≠ src :=
    ⟨h, fun x subs => ⟨subs, fun same => nomatch (same ▸ subs).symm.trans free⟩⟩
  unfold State.withdraw
  cases found : s.store.openAt src with
  | none => exact outside (by rw [Store.subscribed, found])
  | some k =>
    dsimp only
    by_cases subs : hasFeed (s.store.stream k).subs f = true
    · rw [if_pos subs]
      obtain ⟨same, store⟩ := State.releaseAll_sameStreams h.wf f (s.store.holding f src)
      generalize s.releaseAll f (s.store.holding f src) = t at same store ⊢
      have sound := Store.streamsSound_of_subs h.sound same
      obtain ⟨low, used, names⟩ := Store.openAt_some found
      have left : (t.store.leave k f).Streams := Store.Streams.leave ⟨store, sound⟩ low f
      refine ⟨left, fun x member => ?_⟩
      obtain ⟨j, lowj, namesj, subsj⟩ := (Store.subscribed_iff left.sound).mp member
      by_cases here : k = j
      · rw [← here, Store.leave_subs store] at subsj
        nomatch subsj
      · obtain ⟨srcs, feeds, -⟩ := same j
        rw [Store.leave_stream_other here] at namesj subsj
        rw [feeds] at subsj
        rw [srcs] at namesj
        refine ⟨(Store.subscribed_iff h.sound).mpr ⟨j, lowj, namesj, subsj⟩, fun again => here ?_⟩
        exact h.sound.1 k j low lowj used (StreamRecord.isOpen_of_hasFeed subsj) (by rw [names, namesj, again])
    · rw [if_neg subs]
      exact outside (by rw [Store.subscribed, found]; exact Bool.eq_false_iff.mpr subs)

/-- After its withdraw from every stream it holds a feed subscribes to none (R83). -/
theorem State.withdrawAll_leaves {s : State} (h : s.store.Streams) (f : FeedId) (src : Source) :
    (s.withdrawAll f).store.subscribed f src = false := by
  have walk : ∀ (l : List Nat) (t : State), t.store.Streams → ∀ x,
      (l.foldl (fun t k => t.withdraw f (s.store.stream k).src) t).store.subscribed f x = true →
      t.store.subscribed f x = true ∧ ∀ k ∈ l, x ≠ (s.store.stream k).src := fun l => by
    induction l with
    | nil => exact fun t _ x subs => ⟨subs, nofun⟩
    | cons k l ih =>
      intro t streams x subs
      obtain ⟨next, left⟩ := State.withdraw_leaves streams f (s.store.stream k).src
      obtain ⟨held, later⟩ := ih _ next x subs
      obtain ⟨held, here⟩ := left x held
      refine ⟨held, fun j mem => ?_⟩
      rcases List.mem_cons.mp mem with rfl | mem
      · exact here
      · exact later j mem
  refine Bool.eq_false_iff.mpr fun subs => ?_
  obtain ⟨held, gone⟩ := walk _ s h src subs
  obtain ⟨k, low, names, subs⟩ := (Store.subscribed_iff h.sound).mp held
  have listed : k ∈ s.store.openRecords.filter (fun k => hasFeed (s.store.stream k).subs f) :=
    List.mem_filter.mpr ⟨List.mem_filter.mpr ⟨List.mem_range.mpr low, StreamRecord.isOpen_of_hasFeed subs⟩, subs⟩
  exact gone k listed names.symm

end Sys2Proof.Machine
end

section
/-! SUPPORT. A feed at rest, and the feed-stop (R127). -/

namespace Sys2Proof.Machine

theorem State.restEntries_live {s : State} (whole : s.wf = true) {f : FeedId} {e : Nat} (live : e ∈ s.liveEntries f) :
    (s.restEntries f).live f e = Live.rest (s.entry f e).homeSrc := by
  have walk : ∀ (l : List Nat) (t : State), t.wf = true →
      (e ∉ l → (l.foldl (fun s e => s.setLive f e (Live.rest (s.entry f e).homeSrc)) t).live f e = t.live f e) ∧
      (e ∈ l → (l.foldl (fun s e => s.setLive f e (Live.rest (s.entry f e).homeSrc)) t).live f e =
        Live.rest (t.entry f e).homeSrc) := fun l => by
    induction l with
    | nil => exact fun t _ => ⟨fun _ => rfl, nofun⟩
    | cons k l ih =>
      intro t whole
      obtain ⟨outside, inside⟩ := ih (t.setLive f k (Live.rest (t.entry f k).homeSrc)) ((moves_setLive ..).wf whole)
      refine ⟨fun out => ?_, fun mem => ?_⟩
      · obtain ⟨other, out⟩ := not_or.mp (mt List.mem_cons.mpr out)
        exact (outside out).trans (State.setLive_live_other _ f _ (Ne.symm other))
      · by_cases later : e ∈ l
        · exact (inside later).trans (by rw [State.setLive_entry])
        · obtain rfl := (List.mem_cons.mp mem).resolve_right later
          exact (outside later).trans (State.setLive_live _ f (State.live_sorted whole f) ..)
  exact (walk _ s whole).2 live

theorem State.restEntries_map_other (s : State) {f g : FeedId} (other : g ≠ f) : (s.restEntries f).map g = s.map g := by
  unfold State.restEntries
  generalize s.liveEntries f = l
  induction l generalizing s with
  | nil => rfl
  | cons e l ih => exact (ih _).trans (State.setMap_map_other _ _ (Ne.symm other))

theorem State.restEntries_eq (s : State) (f : FeedId) : s.restEntries f = { s with maps := (s.restEntries f).maps } := by
  unfold State.restEntries
  generalize s.liveEntries f = l
  induction l generalizing s with
  | nil => rfl
  | cons e l ih => exact ih _

theorem State.walkLanes_idle {s : State} (idle : s.due.walks = []) : s.walkLanes = s := by
  simp only [State.walkLanes, idle, List.foldl_nil]
  rw [← idle]

theorem State.stopRecord_idle {s : State} {f : FeedId} {r : Nat}
    (free : (s.record r).inUse = true → hasFeed (s.record r).feeds f = false) : State.stopRecord f s r = s := by
  unfold State.stopRecord
  dsimp only
  split
  · next targets =>
    have rests : ¬ (s.record r).inUse = true := fun used => nomatch (free used).symm.trans targets
    split
    · next status => exact absurd (by simp [SpliceRecord.inUse, status]) rests
    · next status => exact absurd (by simp [SpliceRecord.inUse, status]) rests
    · rfl
  · rfl

theorem State.feedStop_idle {s : State} {f : FeedId} (free : ∀ r, (s.record r).inUse = true → hasFeed (s.record r).feeds f = false) :
    s.feedStop f = s := foldl_idle (fun r => State.stopRecord_idle (free r)) _

end Sys2Proof.Machine
end

section
/-! PROOFS. A feed that is disabled, and the records that its stop reaches (R83, R127). -/

namespace Sys2Proof.Machine

/-- A change of a list's items as the statement of a feed-stop writes it. -/
theorem map_finished {β : Type} [DecidableEq β] (f : FeedId) (a b : β) (l : List (FeedId × β)) :
    l.map (fun m => if m.1 = f ∧ m.2 = a then (f, b) else m) = l.map (fun m => if m = (f, a) then (f, b) else m) :=
  List.map_congr_left fun m _ => if_congr (by rw [Prod.ext_iff]) rfl rfl

theorem SpliceRecord.startedCount_eq_zero_iff (x : SpliceRecord) :
    x.startedCount = 0 ↔ ¬ ∃ g, (g, SpliceResult.started) ∈ x.outcomes := by
  rw [SpliceRecord.startedCount, List.length_eq_zero_iff, List.filter_eq_nil_iff]
  constructor
  · rintro none ⟨g, mem⟩
    exact none _ mem (decide_eq_true rfl)
  · rintro none ⟨g, o⟩ mem started
    obtain rfl := of_decide_eq_true started
    exact none ⟨g, mem⟩

theorem State.leaveCompleted_record (s : State) (l : LaneId) (r j : Nat) : (s.leaveCompleted l r).record j = s.record j := by
  simp only [State.leaveCompleted, State.handReport_offered]
  split <;> rfl

/-- The record that new outcomes leave (R128). -/
def SpliceRecord.decided (x : SpliceRecord) (os : List (FeedId × SpliceResult)) : SpliceRecord :=
  { x with
    outcomes := os
    status := if x.status = .armed ∧ ({ x with outcomes := os } : SpliceRecord).startedCount = 0 then .complete else x.status }

theorem State.setOutcomes_record (s : State) (r : Nat) (os : List (FeedId × SpliceResult)) (j : Nat) :
    (s.setOutcomes r os).record j = (s.setRecord r ((s.record r).decided os)).record j := by
  unfold State.setOutcomes SpliceRecord.decided
  dsimp only
  split
  · split
    · rw [State.leaveCompleted_record]
    · rfl
  · rfl

/-- What a feed-stop makes of a record that targets the feed (R127). -/
def SpliceRecord.stopped (x : SpliceRecord) (f : FeedId) : SpliceRecord :=
  if x.status = .noticed then { x with marks := x.marks.map (fun m => if m = (f, Mark.held) then (f, Mark.stopped) else m) }
  else if x.status = .armed then x.decided (finishItem f .abandoned x.outcomes)
  else x

theorem State.stopRecord_record {s : State} {f : FeedId} {r : Nat} (whole : s.wf = true) (targets : hasFeed (s.record r).feeds f = true) :
    (State.stopRecord f s r).record r = (s.record r).stopped f := by
  obtain ⟨-, -, records⟩ := s.wf_iff.mp whole
  have written := fun x => State.setRecord_record s (Table.sorted_of_wf records) r x
  unfold State.stopRecord SpliceRecord.stopped
  rw [if_pos targets]
  cases status : (s.record r).status
  case noticed =>
    dsimp only
    rw [written, if_pos rfl, map_finished]
  case armed =>
    dsimp only
    rw [State.setOutcomes_record, written, if_neg (by decide), if_pos rfl]
  all_goals rfl

theorem State.stopRecord_record_other (s : State) (f : FeedId) {r j : Nat} (other : r ≠ j) :
    (State.stopRecord f s r).record j = s.record j := by
  unfold State.stopRecord
  dsimp only
  split
  · split
    · exact State.setRecord_record_other s _ other
    · exact (State.setOutcomes_record ..).trans (State.setRecord_record_other s _ other)
    · rfl
  · rfl

theorem Table.find_of_not_mem_keys {α : Type} {t : List (Nat × α)} {i : Nat} (out : i ∉ Table.keys t) : Table.find t i = none := by
  induction t with
  | nil => rfl
  | cons kv t ih =>
    obtain ⟨k, v⟩ := kv
    obtain ⟨other, out⟩ := not_or.mp (mt List.mem_cons.mpr out)
    simp only [Table.find, if_neg (Ne.symm other)]
    exact ih out

theorem Table.keys_nodup {α : Type} {t : List (Nat × α)} (sorted : Table.sorted t = true) : (Table.keys t).Nodup := by
  induction t with
  | nil => exact .nil
  | cons kv t ih =>
    obtain ⟨k, v⟩ := kv
    obtain ⟨above, sorted⟩ := (Table.sorted_cons k v t).mp sorted
    refine List.nodup_cons.mpr ⟨fun mem => ?_, ih sorted⟩
    obtain ⟨kw, mem, same⟩ := List.mem_map.mp mem
    exact absurd (above kw mem) (by rw [same]; exact Nat.lt_irrefl _)

/-- A feed-stop deals with each record that targets the feed once (R127). -/
theorem State.feedStop_record {s : State} {f : FeedId} {r : Nat} (whole : s.wf = true) (targets : hasFeed (s.record r).feeds f = true) :
    (s.feedStop f).record r = (s.record r).stopped f := by
  have outside : ∀ (l : List Nat) (t : State), r ∉ l → (l.foldl (State.stopRecord f) t).record r = t.record r := fun l => by
    induction l with
    | nil => exact fun _ _ => rfl
    | cons k l ih =>
      intro t out
      obtain ⟨other, out⟩ := not_or.mp (mt List.mem_cons.mpr out)
      exact (ih _ out).trans (t.stopRecord_record_other f (Ne.symm other))
  have inside : ∀ (l : List Nat) (t : State), l.Nodup → r ∈ l → t.wf = true → t.record r = s.record r →
      (l.foldl (State.stopRecord f) t).record r = (s.record r).stopped f := fun l => by
    induction l with
    | nil => exact fun _ _ mem => nomatch mem
    | cons k l ih =>
      intro t nodup mem whole same
      have ⟨first, rest⟩ := List.nodup_cons.mp nodup
      by_cases here : r = k
      · subst here
        rw [List.foldl_cons, outside l _ first, State.stopRecord_record whole (by rw [same]; exact targets), same]
      · exact ih _ rest ((List.mem_cons.mp mem).resolve_left here) ((moves_stopRecord ..).wf whole)
          ((t.stopRecord_record_other f (Ne.symm here)).trans same)
  obtain ⟨-, -, records⟩ := s.wf_iff.mp whole
  have listed : r ∈ Table.keys s.ssu.records := Classical.by_contradiction fun out => by
    have blank : s.record r = SpliceRecord.blank := by
      rw [State.record, Table.get, Table.find_of_not_mem_keys out]
      rfl
    rw [blank] at targets
    simp [SpliceRecord.blank, hasFeed] at targets
  exact inside _ s (Table.keys_nodup (Table.sorted_of_wf records)) listed whole rfl

/-- A feed at rest: no stream is left to it, and its live entries take their rest values (R83, R84). -/
def State.restFeed (s : State) (f : FeedId) : State := (s.withdrawAll f).restEntries f

theorem State.restFeed_eq (s : State) (f : FeedId) :
    s.restFeed f = { s with store := (s.restFeed f).store, maps := (s.restFeed f).maps, mlt := (s.restFeed f).mlt } := by
  have rested := (s.withdrawAll f).restEntries_eq f
  have frame := (stored_withdrawAll s f).eq
  unfold State.restFeed
  rw [rested, frame]

theorem State.restFeed_responses (s : State) (f : FeedId) : (s.restFeed f).mlt.responses = s.mlt.responses :=
  ((moves_withdrawAll s f).trans (moves_restEntries _ f)).responses

theorem State.restFeed_subscribed {s : State} (h : s.store.Streams) (f : FeedId) (src : Source) :
    (s.restFeed f).store.subscribed f src = false := by
  rw [State.restFeed, State.restEntries_eq]
  exact State.withdrawAll_leaves h f src

theorem State.restFeed_map_other (s : State) {f g : FeedId} (other : g ≠ f) : (s.restFeed f).map g = s.map g :=
  (State.restEntries_map_other _ other).trans ((stored_withdrawAll s f).map g)

theorem Stored.liveEntries {s t : State} (h : Stored s t) (f : FeedId) : t.liveEntries f = s.liveEntries f := by
  rw [State.liveEntries, h.map]
  rfl

theorem Stored.entry {s t : State} (h : Stored s t) (f : FeedId) (e : Nat) : t.entry f e = s.entry f e := by
  rw [State.entry, h.map]
  rfl

theorem State.restFeed_live {s : State} (whole : s.wf = true) {f : FeedId} {e : Nat} (live : e ∈ s.liveEntries f) :
    (s.restFeed f).live f e = Live.rest (s.entry f e).homeSrc := by
  have frame := stored_withdrawAll s f
  have rests := State.restEntries_live ((moves_withdrawAll s f).wf whole) (frame.liveEntries f ▸ live)
  rw [frame.entry] at rests
  exact rests

/-- A feed that no record in use targets and no commit lists is disabled alone (R83). -/
theorem State.disableFeed_alone {s : State} {f : FeedId} (settled : s.settled)
    (free : ∀ r, (s.record r).inUse = true → hasFeed (s.record r).feeds f = false) (uncommitted : s.commitOf f = none) :
    s.disableFeed f =
      let b := (s.setFeed f { s.feed f with state := .disabled, pendMode := .none, injectPending := false }).restFeed f
      { b with due := { b.due with cycleFeeds := dropFeed b.due.cycleFeeds f } } := by
  obtain ⟨-, idle⟩ := settled
  unfold State.disableFeed
  dsimp only
  generalize ha : s.setFeed f { s.feed f with state := .disabled, pendMode := .none, injectPending := false } = a
  have stopped : a.feedStop f = a := by rw [← ha]; exact State.feedStop_idle free
  have frame := a.restFeed_eq f
  rw [stopped, ← State.restFeed]
  generalize a.restFeed f = b at frame ⊢
  have commits : b.commitOf f = none := by rw [frame, ← ha]; exact uncommitted
  rw [commits]
  exact State.walkLanes_idle (by rw [frame, ← ha]; exact idle)

theorem State.disableFeed_facts {s : State} {f : FeedId} (whole : s.wf = true) (settled : s.settled)
    (sound : s.store.streamsSound) (free : ∀ r, (s.record r).inUse = true → hasFeed (s.record r).feeds f = false)
    (uncommitted : s.commitOf f = none) :
    let t := s.disableFeed f
    t.mlt.responses = s.mlt.responses ∧
    t.feeds = upd s.feeds f { s.feed f with state := .disabled, pendMode := .none, injectPending := false } ∧
    (∀ src, t.store.subscribed f src = false) ∧ (∀ g, g ≠ f → t.map g = s.map g) ∧ t.ports = s.ports ∧ t.tbu = s.tbu ∧
    t.mgmt = s.mgmt ∧ t.commits = s.commits ∧
    ∀ e, e ∈ s.liveEntries f → t.live f e = Live.rest (s.entry f e).homeSrc := by
  rw [State.disableFeed_alone settled free uncommitted]
  dsimp only
  generalize ha : s.setFeed f { s.feed f with state := .disabled, pendMode := .none, injectPending := false } = a
  have frame := a.restFeed_eq f
  have responses : (a.restFeed f).mlt.responses = s.mlt.responses := (a.restFeed_responses f).trans (by rw [← ha]; rfl)
  have gone : ∀ src, (a.restFeed f).store.subscribed f src = false := by
    obtain ⟨store, -, -⟩ := s.wf_iff.mp whole
    exact State.restFeed_subscribed (by rw [← ha]; exact ⟨store, sound⟩) f
  have others : ∀ g, g ≠ f → (a.restFeed f).map g = s.map g := fun g other =>
    (a.restFeed_map_other other).trans (by rw [← ha]; rfl)
  have lives : ∀ e, e ∈ s.liveEntries f → (a.restFeed f).live f e = Live.rest (s.entry f e).homeSrc := fun e live => by
    rw [State.restFeed_live (by rw [← ha]; exact whole) (by rw [← ha]; exact live), ← ha]
    rfl
  generalize a.restFeed f = b at frame responses gone others lives ⊢
  refine ⟨responses, ?_, gone, others, ?_, ?_, ?_, ?_, lives⟩ <;> rw [frame, ← ha] <;> rfl

/-- Settles O46: the feed is disabled at rest, and a feed-stop tells every record that targets the feed. -/
theorem setFeedDisabledStopsFeed : Obligations.SetFeedDisabledStopsFeed := by
  unfold Obligations.SetFeedDisabledStopsFeed
  refine ⟨fun tag feed s f ready hf => ?_, fun s f r whole targets => ?_⟩
  · have judged := s.judge_setFeed tag feed 0 0xFFFF
    have same : s.setFeed f ((s.feed f).tagged 0xFFFF) = s := s.setFeed_self f
    rw [State.applySetFeed_eq hf rfl (.inr rfl), if_pos (by simp [State.feedChangeFits]), same] at judged
    refine ⟨fun off => ?_, fun on whole settled sound free uncommitted => ?_⟩
    · have change : s.changeFeed f .disabled = s.setPendMode f .none := by simp only [State.changeFeed, off]
      rw [change] at judged
      exact exec_answered rfl ready judged rfl
    · have change : s.changeFeed f .disabled = s.disableFeed f := by
        unfold State.changeFeed
        cases state : (s.feed f).state
        case disabled => exact absurd state on
        all_goals rfl
      rw [change] at judged
      obtain ⟨responses, facts⟩ := State.disableFeed_facts whole settled sound free uncommitted
      generalize s.disableFeed f = t at judged responses facts
      obtain ⟨feeds, gone, others, ports, tbu, mgmt, commits, lives⟩ := facts
      exact ⟨t, exec_answered rfl ready judged responses, feeds, gone, others, ports, tbu, mgmt, commits, lives⟩
  · rw [State.feedStop_record whole targets]
    dsimp only
    unfold SpliceRecord.stopped SpliceRecord.decided finishItem
    rw [map_finished]
    refine if_congr Iff.rfl rfl ?_
    by_cases armed : (s.record r).status = .armed
    · rw [if_pos armed, if_pos armed]
      simp only [SpliceRecord.startedCount_eq_zero_iff, armed, true_and, ite_not]
    · rw [if_neg armed, if_neg armed]

end Sys2Proof.Machine
end

section
/-! PROOFS. A feed enters TEST at its slot boundary (R84, R173). -/

namespace Sys2Proof.Machine

theorem exec_feedEntersTest (s : State) (f : FeedId) :
    exec (.feedEntersTest f) s =
      .next (if hasFeed s.due.slotFeeds f ∧ (s.feed f).pendMode = .test then s.slotPartFeed f else s) := rfl

/-- The streams and the entries of a feed that enters TEST (R84). -/
def State.clearFeed (s : State) (f : FeedId) : State := if s.feedNeeds f then s.restFeed f else s.restEntries f

theorem State.clearFeed_eq (s : State) (f : FeedId) :
    s.clearFeed f = { s with store := (s.clearFeed f).store, maps := (s.clearFeed f).maps, mlt := (s.clearFeed f).mlt } := by
  unfold State.clearFeed
  split
  · exact s.restFeed_eq f
  · rw [State.restEntries_eq]

theorem State.clearFeed_live {s : State} (whole : s.wf = true) {f : FeedId} {e : Nat} (live : e ∈ s.liveEntries f) :
    (s.clearFeed f).live f e = Live.rest (s.entry f e).homeSrc := by
  unfold State.clearFeed
  split
  · exact State.restFeed_live whole live
  · exact State.restEntries_live whole live

theorem State.clearFeed_map_other (s : State) {f g : FeedId} (other : g ≠ f) : (s.clearFeed f).map g = s.map g := by
  unfold State.clearFeed
  split
  · exact s.restFeed_map_other other
  · exact s.restEntries_map_other other

theorem State.enterTest_alone {s : State} {f : FeedId} (settled : s.settled)
    (free : ∀ r, (s.record r).inUse = true → hasFeed (s.record r).feeds f = false) :
    s.enterTest f =
      let b := s.clearFeed f
      let c := b.setFeed f { s.feed f with state := .test, pendMode := .none, gen := BitVec.allOnes 17, patCont := 0 }
      { c with due := { c.due with cycleFeeds := dropFeed c.due.cycleFeeds f } } := by
  obtain ⟨-, idle⟩ := settled
  have cleared : (if s.feedNeeds f then (s.feedStop f).withdrawAll f else s).restEntries f = s.clearFeed f := by
    rw [State.feedStop_idle free, State.clearFeed]
    split <;> rfl
  unfold State.enterTest
  dsimp only
  rw [cleared]
  have frame := s.clearFeed_eq f
  generalize s.clearFeed f = b at frame ⊢
  have feed : b.feed f = s.feed f := by rw [frame]; rfl
  rw [feed]
  exact State.walkLanes_idle (by rw [frame]; exact idle)

/-- The cell that starts the pattern sequence of a feed (R171, R172). -/
theorem State.sendPattern_first {s : State} {f : FeedId} {x : Feed} (feed : s.feed f = x) (seed : x.gen = 0x1FFFF) (start : x.patCont = 0) :
    ∃ cell, (s.sendPattern f).feed f =
        { x with gen := (genRun 1248 0x1FFFF).2, patCont := 1, injectPending := false, sent := some cell } ∧
      cell.hdr.kind = .programme ∧ cell.hdr.tag = x.testTag ∧ cell.hdr.cont = 0 ∧
      (x.injectPending = false → cell.payload = bytesOfBits 156 (genRun 1248 0x1FFFF).1) := by
  have sent := s.sendPattern_feed f
  have length : (bytesOfBits 156 (genRun 1248 0x1FFFF).1).length = 156 := bytesOfBits_length ..
  rw [feed, seed, start] at sent
  refine ⟨_, sent, rfl, rfl, rfl, fun quiet => ?_⟩
  rw [if_neg (ne_true_of_eq_false quiet)]
  exact padTo_of_length length

theorem State.enterTest_facts {s : State} {f : FeedId} (settled : s.settled)
    (free : ∀ r, (s.record r).inUse = true → hasFeed (s.record r).feeds f = false) (whole : s.wf = true)
    (sound : s.store.streamsSound) :
    let t := s.enterTest f
    t.feeds = upd s.feeds f { s.feed f with state := .test, pendMode := .none, gen := BitVec.allOnes 17, patCont := 0 } ∧
    t.due = { s.due with cycleFeeds := dropFeed s.due.cycleFeeds f } ∧ (∀ g, g ≠ f → t.map g = s.map g) ∧
    (s.feedNeeds f = true → ∀ src, t.store.subscribed f src = false) ∧
    (∀ e, e ∈ s.liveEntries f → t.live f e = Live.rest (s.entry f e).homeSrc) ∧ t.ports = s.ports ∧ t.commits = s.commits := by
  rw [State.enterTest_alone settled free]
  have frame := s.clearFeed_eq f
  have gone : s.feedNeeds f = true → ∀ src, (s.clearFeed f).store.subscribed f src = false := fun needs src => by
    obtain ⟨store, -, -⟩ := s.wf_iff.mp whole
    rw [State.clearFeed, if_pos needs]
    exact State.restFeed_subscribed ⟨store, sound⟩ f src
  have others : ∀ g, g ≠ f → (s.clearFeed f).map g = s.map g := fun g other => s.clearFeed_map_other other
  have lives : ∀ e, e ∈ s.liveEntries f → (s.clearFeed f).live f e = Live.rest (s.entry f e).homeSrc := fun e live =>
    State.clearFeed_live whole live
  dsimp only
  generalize s.clearFeed f = b at frame gone others lives ⊢
  refine ⟨?_, ?_, others, gone, lives, ?_, ?_⟩ <;> rw [frame] <;> rfl

theorem State.slotOfFeed_entersTest {s : State} {f : FeedId} (mode : (s.feed f).pendMode = .test)
    (test : ((s.enterTest f).feed f).state = .test) : s.slotOfFeed f = (s.enterTest f).sendPattern f := by
  unfold State.slotOfFeed
  rw [if_pos mode]
  dsimp only
  rw [test]

/-- The slot boundary at which a feed enters TEST (R84, R173). -/
theorem State.slotOfFeed_entersTest_facts {s : State} {f : FeedId} (settled : s.settled) (mode : (s.feed f).pendMode = .test)
    (free : ∀ r, (s.record r).inUse = true → hasFeed (s.record r).feeds f = false) (whole : s.wf = true)
    (sound : s.store.streamsSound) :
    let t := s.slotOfFeed f
    ∃ cell, t.feed f =
        { s.feed f with
          state := .test, pendMode := .none, gen := (genRun 1248 0x1FFFF).2, patCont := 1, injectPending := false,
          sent := some cell } ∧
      cell.hdr.kind = .programme ∧ cell.hdr.tag = (s.feed f).testTag ∧ cell.hdr.cont = 0 ∧
      ((s.feed f).injectPending = false → cell.payload = bytesOfBits 156 (genRun 1248 0x1FFFF).1) ∧
      t.due = { s.due with cycleFeeds := dropFeed s.due.cycleFeeds f } ∧
      (∀ g, g ≠ f → t.feed g = s.feed g ∧ t.map g = s.map g) ∧
      (s.feedNeeds f = true → ∀ src, t.store.subscribed f src = false) ∧
      (∀ e, e ∈ s.liveEntries f → t.live f e = Live.rest (s.entry f e).homeSrc) ∧
      t.ports = s.ports ∧ t.commits = s.commits := by
  obtain ⟨feeds, due, others, gone, lives, ports, commits⟩ := State.enterTest_facts settled free whole sound
  have sends := State.slotOfFeed_entersTest (s := s) (f := f) mode
  generalize s.enterTest f = c at feeds due others gone lives ports commits sends
  have feed : c.feed f = { s.feed f with state := .test, pendMode := .none, gen := BitVec.allOnes 17, patCont := 0 } := by
    rw [State.feed, feeds]
    exact upd_get_same ..
  have later : ∀ g, g ≠ f → (c.sendPattern f).feed g = s.feed g := fun g other => by
    refine (State.setFeed_feed_other c _ (Ne.symm other)).trans ?_
    rw [State.feed, feeds]
    exact upd_get_other _ _ (Ne.symm other)
  obtain ⟨cell, sent, kind, tag, cont, payload⟩ := State.sendPattern_first feed (show BitVec.allOnes 17 = 0x1FFFF by decide) rfl
  rw [sends (by rw [feed])]
  exact ⟨cell, sent, kind, tag, cont, payload, due, fun g other => ⟨later g other, others g other⟩, gone, lives, ports, commits⟩

/-- Settles O36: the feed enters TEST at rest and sends its first pattern cell. -/
theorem feedEntersTestAtRest : Obligations.FeedEntersTestAtRest := by
  unfold Obligations.FeedEntersTestAtRest
  refine ⟨fun s f settled owed mode free whole sound => ?_, fun s f other => ?_⟩
  · obtain ⟨cell, sent, kind, tag, cont, payload, due, others, gone, lives, ports, commits⟩ := State.slotOfFeed_entersTest_facts
      (s := { s with due := { s.due with slotFeeds := dropFeed s.due.slotFeeds f } }) settled mode free whole sound
    have taken : s.slotPartFeed f =
        State.slotOfFeed { s with due := { s.due with slotFeeds := dropFeed s.due.slotFeeds f } } f := if_pos owed
    rw [exec_feedEntersTest, if_pos ⟨owed, mode⟩, taken]
    generalize State.slotOfFeed { s with due := { s.due with slotFeeds := dropFeed s.due.slotFeeds f } } f = t at *
    refine ⟨t, cell, rfl, sent, kind, tag, cont, payload, ?_, ?_, others, gone, lives, ports, commits⟩
    · rw [due]
      simp [hasFeed_dropFeed]
    · rw [due]
      simp [hasFeed_dropFeed]
  · rw [exec_feedEntersTest, if_neg fun h => other h.right]

end Sys2Proof.Machine
end

section
/-! SUPPORT. The swap of one feed (R74 to R77): its live fields, its banks, and the end of its commit. -/

namespace Sys2Proof.Machine

theorem Table.get_foldl_set {α : Type} [DecidableEq α] {d : α} (g : Nat → α) (l : List Nat) (t : List (Nat × α))
    (canonical : Table.wf d t = true) (i : Nat) :
    Table.get d (l.foldl (fun t e => Table.set d t e (g e)) t) i = if i ∈ l then g i else Table.get d t i := by
  induction l generalizing t with
  | nil => rfl
  | cons e l ih =>
    refine (ih _ (Table.wf_set canonical e (g e))).trans ?_
    by_cases later : i ∈ l
    · rw [if_pos later, if_pos (.tail _ later)]
    · rw [if_neg later]
      by_cases here : e = i
      · rw [if_pos (here ▸ .head _), ← here, Table.get_set_same (Table.sorted_of_wf canonical)]
      · rw [if_neg fun mem => (List.mem_cons.mp mem).elim (fun same => here same.symm) later, Table.get_set_other _ _ _ here]

section
variable (s : State) (f : FeedId)

theorem State.swapFeed_map :
    ∃ live, (s.swapFeed f).map f = { s.map f with activeBank := (s.map f).activeBank.other, live := live } ∧
      ∀ e, Table.get Live.vacant live e =
        if e ∈ usedEntries (s.map f).shadow then s.carried f (bankEntry (s.map f).shadow e) else Live.vacant := by
  refine ⟨_, State.setMap_map .., fun e => ?_⟩
  exact (Table.get_foldl_set (fun e => s.carried f (bankEntry (s.map f).shadow e)) _ [] rfl e).trans (if_congr Iff.rfl rfl rfl)

theorem State.swapFeed_map_other {g : FeedId} (other : g ≠ f) : (s.swapFeed f).map g = s.map g :=
  State.setMap_map_other _ _ (Ne.symm other)

theorem stored_swapSubscribes (old new t : State) : Stored t (State.swapSubscribes old new t f) := by
  unfold State.swapSubscribes
  split
  · exact ((Stored.foldl _ (fun t src => stored_takeUp t f src false) _ t).trans
      (Stored.foldl _ (fun t src => stored_subscribeFound t f src false) _ _)).trans
      (Stored.foldl _ (fun t src => stored_subscribeFound t f src true) _ _)
  · exact .refl t

/-- Between the swap of the banks and their refresh only the store moves (R76). -/
theorem State.swap_oneFeed :
    ∃ t, Stored (s.swapFeed f) t ∧ Moves (s.swapFeed f) t ∧ s.swap (oneFeed f) = t.refresh f := by
  unfold State.swap
  rw [feedList_oneFeed]
  dsimp only [List.foldl_cons, List.foldl_nil]
  exact ⟨_, (Stored.foldl _ (fun t src => stored_withdraw t f src) _ _).trans (stored_swapSubscribes ..),
    (Moves.foldl _ (fun t src => moves_withdraw t f src) _ _).trans (moves_swapSubscribes ..), rfl⟩

end

/-- The end of a commit that finds room for its response (R70, R77). -/
theorem State.endCommit_placed {s : State} {c : Commit} {f : FeedId} (only : c.feeds = oneFeed f) (unheld : s.heldCommits = [])
    (room : s.mlt.responses.length < 16) (res : Result) (l : List Byte) :
    s.endCommit c res l =
      ({ s.setMap f { s.map f with locked := false } with
          commits := s.commits.filter (fun x => x.feeds &&& c.feeds = 0) }.placeResponse (answerOf c.tag 0x32 res l)) := by
  have unlocks : State.unlockAll { s with commits := s.commits.filter (fun x => x.feeds &&& c.feeds = 0) } c.feeds =
      { s.setMap f { s.map f with locked := false } with commits := s.commits.filter (fun x => x.feeds &&& c.feeds = 0) } := by
    rw [State.unlockAll, only, feedList_oneFeed]
    rfl
  rw [State.endCommit, unlocks]
  exact if_pos ⟨unheld, decide_eq_true room⟩

theorem FeedMap.refreshed (m : FeedMap) :
    let r : FeedMap := { m.setBank m.activeBank.other m.active with locked := false }
    r.activeBank = m.activeBank ∧ r.active = m.active ∧ r.shadow = m.active ∧ r.live = m.live := by
  unfold FeedMap.active FeedMap.shadow
  cases h : m.activeBank <;> simp [FeedMap.setBank, FeedMap.bank, Bank.other, h]

theorem clampCredit_eq (u : Nat) (c : Int) : clampCredit u c = max (-(u : Int)) (min c (2 * u)) := by
  unfold clampCredit
  split <;> omega

end Sys2Proof.Machine
end

section
/-! PROOFS. A commit of one feed (R71 to R77). -/

namespace Sys2Proof.Machine

/-- The commits that are considered at this cycle boundary no more (R71). -/
def State.considered (s : State) (c : Commit) : State :=
  { s with commits := s.commits.map (fun (x : Commit) => if x.feeds = c.feeds then { x with due := false } else x) }

theorem State.busyFeed_oneFeed (s : State) (f : FeedId) : s.busyFeed (oneFeed f) = if s.feedBusy f then some f else none := by
  rw [State.busyFeed, feedList_oneFeed, List.find?_cons, List.find?_nil]
  cases s.feedBusy f <;> rfl

theorem State.considered_feeds (s : State) (c : Commit) (fs : FeedSet) :
    ((s.considered c).commits.filter (fun x => x.feeds &&& fs = 0)).map Commit.feeds =
      (s.commits.map Commit.feeds).filter (fun x => x &&& fs = 0) := by
  unfold State.considered
  dsimp only
  induction s.commits with
  | nil => rfl
  | cons x l ih =>
    have same : (if x.feeds = c.feeds then { x with due := false } else x).feeds = x.feeds := by split <;> rfl
    rw [List.map_cons, List.map_cons, List.filter_cons, List.filter_cons, same]
    by_cases stays : decide (x.feeds &&& fs = 0) = true
    · rw [if_pos stays, if_pos stays, List.map_cons, same, ih]
    · rw [if_neg stays, if_neg stays, ih]

theorem exec_commitSwap {s : State} {f : FeedId} {c : Commit} (lists : s.commitOf f = some c) (due : c.due = true)
    (only : c.feeds = oneFeed f) :
    exec (.commitSwap f) s = .next (if s.feedBusy f then s else s.considerCommit c) := by
  have found : s.dueCommit f = some c := by rw [State.dueCommit, lists, Option.filter_some, if_pos due]
  have run : exec (.commitSwap f) s = .next (match s.dueCommit f with
    | some c => if (s.busyFeed c.feeds).isNone then s.considerCommit c else s
    | none => s) := rfl
  rw [run, found]
  dsimp only
  rw [only, State.busyFeed_oneFeed]
  cases s.feedBusy f <;> rfl

theorem exec_commitTimeout {s : State} {f : FeedId} {c : Commit} (lists : s.commitOf f = some c) (due : c.due = true)
    (only : c.feeds = oneFeed f) (busy : s.feedBusy f = true) :
    exec (.commitTimeout f) s = .next (if 64 ≤ c.considered then s.considerCommit c else s) := by
  have found : s.dueCommit f = some c := by rw [State.dueCommit, lists, Option.filter_some, if_pos due]
  have run : exec (.commitTimeout f) s = .next (match s.dueCommit f with
    | some c => if (s.busyFeed c.feeds).isSome ∧ Config.commitLimit ≤ c.considered then s.considerCommit c else s
    | none => s) := rfl
  rw [run, found]
  dsimp only
  rw [only, State.busyFeed_oneFeed, busy]
  exact congrArg _ (if_congr (by simp [Config.commitLimit]) rfl rfl)

theorem State.considerCommit_swaps {s : State} {f : FeedId} {c : Commit} (only : c.feeds = oneFeed f) (free : s.feedBusy f = false)
    (passes : s.swapCheck c.feeds = none) :
    s.considerCommit c = ((s.considered c).swap (oneFeed f)).endCommit c .ok (bytesOf 2 s.tbu.cycleNo.toNat) := by
  have rests : (s.considered c).busyFeed c.feeds = none := by
    rw [only, State.busyFeed_oneFeed]
    exact if_neg (ne_true_of_eq_false free)
  have passes : (s.considered c).swapCheck c.feeds = none := passes
  have tries : s.considerCommit c = match (s.considered c).busyFeed c.feeds with
    | none => (s.considered c).trySwap c
    | some f => if Config.commitLimit ≤ c.considered then (s.considered c).commitTimeout c f else s.considered c := rfl
  rw [tries, rests]
  dsimp only
  rw [State.trySwap, passes]
  dsimp only
  rw [only]
  rfl

theorem State.considerCommit_ends {s : State} {f : FeedId} {c : Commit} (only : c.feeds = oneFeed f) (busy : s.feedBusy f = true)
    (late : 64 ≤ c.considered) :
    s.considerCommit c =
      (s.considered c).endCommit c .timeout (bytesOf 2 s.tbu.cycleNo.toNat ++ [BitVec.ofNat 8 f.val]) := by
  have waits : (s.considered c).busyFeed c.feeds = some f := by
    rw [only, State.busyFeed_oneFeed]
    exact if_pos busy
  have tries : s.considerCommit c = match (s.considered c).busyFeed c.feeds with
    | none => (s.considered c).trySwap c
    | some f => if Config.commitLimit ≤ c.considered then (s.considered c).commitTimeout c f else s.considered c := rfl
  rw [tries, waits]
  dsimp only
  rw [if_pos (show Config.commitLimit ≤ c.considered from late), State.commitTimeout, e1_eq]
  rfl

/-- The live fields that an entry of the new bank carries on (R75). -/
theorem State.carried_facts (s : State) (f : FeedId) (x : MapEntry) :
    (s.feedNeeds f = false ∨ s.entryOfTag f x.outTag = none → s.carried f x = Live.rest x.homeSrc) ∧
    ∀ o, s.feedNeeds f = true → s.entryOfTag f x.outTag = some o →
      let v := s.live f o
      let w := s.carried f x
      w.credit = max (-(16 * s.tbu.cycleLen : Int)) (min v.credit (2 * (16 * s.tbu.cycleLen : Int))) ∧ w.outCont = v.outCont ∧
      w.newSrc = none ∧ w.prevSrc = none ∧ w.windowLeft = 0 ∧ w.onMiss = none ∧ w.owner = none ∧
      ((s.entry f o).homeSrc = x.homeSrc →
        w.estate = v.estate ∧ w.curSrc = v.curSrc ∧ w.protSrc = v.protSrc ∧ w.discPending = v.discPending) ∧
      ((s.entry f o).homeSrc ≠ x.homeSrc →
        w.estate = .onAir ∧ w.curSrc = some x.homeSrc ∧ w.protSrc = none ∧ w.revertLeft = none ∧ w.discPending = true) := by
  have credit (v : Live) : clampCredit s.unitCost v.credit =
      max (-(16 * s.tbu.cycleLen : Int)) (min v.credit (2 * (16 * s.tbu.cycleLen : Int))) := by
    rw [clampCredit_eq, State.unitCost]
    push_cast
    rfl
  unfold State.carried
  refine ⟨fun fresh => ?_, fun o needs found => ?_⟩
  · by_cases needs : s.feedNeeds f = true
    · rw [if_pos needs, fresh.resolve_left (by rw [needs]; decide)]
    · rw [if_neg needs]
  · rw [if_pos needs, found]
    dsimp only
    by_cases same : (s.entry f o).homeSrc = x.homeSrc
    · rw [if_pos same]
      exact ⟨credit _, rfl, rfl, rfl, rfl, rfl, rfl, fun _ => ⟨rfl, rfl, rfl, rfl⟩, fun other => absurd same other⟩
    · rw [if_neg same]
      exact ⟨credit _, rfl, rfl, rfl, rfl, rfl, rfl, fun again => absurd again same, fun _ => ⟨rfl, rfl, rfl, rfl, rfl⟩⟩

/-- The state that the commit of one feed leaves (R74 to R77). -/
theorem State.swap_facts {s : State} {f : FeedId} :
    let t := s.swap (oneFeed f)
    t.feeds = s.feeds ∧ t.ssu = s.ssu ∧ t.ports = s.ports ∧ t.commits = s.commits ∧ t.heldCommits = s.heldCommits ∧
    t.mlt.responses = s.mlt.responses ∧ (t.map f).activeBank = (s.map f).activeBank.other ∧
    (t.map f).active = (s.map f).shadow ∧ (t.map f).shadow = (s.map f).shadow ∧ (∀ g, g ≠ f → t.map g = s.map g) ∧
    ∀ e, t.live f e = if e ∈ usedEntries (s.map f).shadow then s.carried f (bankEntry (s.map f).shadow e) else Live.vacant := by
  obtain ⟨t, frame, moves, swapped⟩ := s.swap_oneFeed f
  obtain ⟨live, map, lives⟩ := s.swapFeed_map f
  dsimp only
  rw [swapped]
  have kept : t.map f = _ := (frame.map f).trans map
  have refreshed : (t.refresh f).map f = _ := State.setMap_map ..
  rw [kept] at refreshed
  obtain ⟨bank, active, shadow, same⟩ := FeedMap.refreshed
    { s.map f with activeBank := (s.map f).activeBank.other, live := live }
  refine ⟨frame.feeds, frame.ssu, frame.ports, frame.commits, ?_, moves.responses, ?_, ?_, ?_, fun g other => ?_, fun e => ?_⟩
  · exact (congrArg State.heldCommits frame.eq).trans rfl
  · rw [refreshed]; exact bank
  · rw [refreshed]; exact active
  · rw [refreshed]; exact shadow
  · exact ((State.setMap_map_other _ _ (Ne.symm other)).trans (frame.map g)).trans (s.swapFeed_map_other f other)
  · rw [State.live, refreshed]
    exact (congrArg (Table.get Live.vacant · e) same).trans (lives e)

/-- Settles O34: the swap of one feed's commit, or its timeout. -/
theorem commitSwapsOrTimesOut : Obligations.CommitSwapsOrTimesOut := by
  unfold Obligations.CommitSwapsOrTimesOut
  intro s f c whole lists due only unheld room m u
  refine ⟨fun free passes => ?_, fun busy late => ?_, fun busy => ?_, fun busy early => ?_⟩
  · have swaps := State.considerCommit_swaps only free passes
    obtain ⟨feeds, ssu, ports, commits, held, responses, bank, active, shadow, others, lives⟩ :=
      State.swap_facts (s := s.considered c) (f := f)
    generalize (s.considered c).swap (oneFeed f) = q at swaps feeds ssu ports commits held responses bank active shadow others lives
    rw [State.endCommit_placed only (held.trans unheld) (by rw [responses]; exact room)] at swaps
    have unlocked : (q.setMap f { q.map f with locked := false }).map f = { q.map f with locked := false } := State.setMap_map ..
    have maps (t : State) (h : t.maps = (q.setMap f { q.map f with locked := false }).maps) :
        t.map f = { q.map f with locked := false } ∧ (∀ g, g ≠ f → t.map g = s.map g) ∧ ∀ e, t.live f e = q.live f e := by
      have here : t.map f = { q.map f with locked := false } := (congrArg (fun v => v.get f) h).trans unlocked
      refine ⟨here, fun g other => (congrArg (fun v => v.get g) h).trans ?_, fun e => by rw [State.live, here]; rfl⟩
      exact (State.setMap_map_other _ _ (Ne.symm other)).trans (others g other)
    have left := (congrArg (fun l => (List.filter (fun x : Commit => x.feeds &&& c.feeds = 0) l).map Commit.feeds) commits).trans
      (s.considered_feeds c c.feeds)
    generalize ht : State.placeResponse _ (answerOf c.tag 0x32 .ok (bytesOf 2 s.tbu.cycleNo.toNat)) = t at swaps
    obtain ⟨here, others, live⟩ := maps t (by rw [← ht]; rfl)
    refine ⟨t, (exec_commitSwap lists due only).trans (congrArg _ ((if_neg (ne_true_of_eq_false free)).trans swaps)),
      by rw [← ht]; exact feeds, by rw [← ht]; exact ssu, by rw [← ht]; exact ports, by rw [← ht]; exact left,
      by rw [← ht]; exact congrArg (· ++ _) responses, by rw [here]; exact bank, by rw [here], by rw [here]; exact active,
      by rw [here]; exact shadow, others, fun e low => ?_⟩
    obtain ⟨rests, carries⟩ := s.carried_facts f (bankEntry m.shadow e)
    have value := (live e).trans (lives e)
    have listed (used : (bankEntry m.shadow e).used = true) : t.live f e = s.carried f (bankEntry m.shadow e) :=
      value.trans (if_pos (mem_usedEntries.mpr ⟨low, used⟩))
    refine ⟨fun unused => ?_, fun used fresh => (listed used).trans (rests fresh), fun o used needs found => ?_⟩
    · exact value.trans (if_neg fun mem => nomatch unused.symm.trans (mem_usedEntries.mp mem).2)
    · rw [listed used]
      exact carries o needs found
  · have ends := State.considerCommit_ends only busy late
    rw [State.endCommit_placed (s := s.considered c) only unheld room] at ends
    refine ⟨_, (exec_commitTimeout lists due only busy).trans (congrArg _ ((if_pos late).trans ends)), rfl, s.considered_feeds c c.feeds,
      State.setMap_map .., fun g other => State.setMap_map_other _ _ (Ne.symm other), rfl⟩
  · rw [exec_commitSwap lists due only, if_pos busy]
  · rw [exec_commitTimeout lists due only busy, if_neg (Nat.not_le.mpr early)]

end Sys2Proof.Machine
end

section
/-! SUPPORT. Subscribes without the uniqueness of streams: the record that a subscribe writes is the first of its stream. -/

namespace Sys2Proof.Machine

theorem Store.openAt_of_first {st : Store} {src : Source} {k : Nat} (low : k < 128) (used : (st.stream k).isOpen = true)
    (names : (st.stream k).src = src) (first : ∀ j < k, ¬ ((st.stream j).isOpen = true ∧ (st.stream j).src = src)) :
    st.openAt src = some k := by
  refine List.find?_range_eq_some.mpr ⟨?_, List.mem_range.mpr low, fun j before => ?_⟩
  · rw [used, Bool.true_and]
    exact decide_eq_true names
  · have other := first j before
    rw [Bool.not_eq_true', Bool.eq_false_iff, Ne, Bool.and_eq_true, decide_eq_true_eq]
    exact other

theorem Store.openAt_first {st : Store} {src : Source} {k : Nat} (found : st.openAt src = some k) :
    ∀ j < k, ¬ ((st.stream j).isOpen = true ∧ (st.stream j).src = src) := fun j before ⟨used, names⟩ => by
  have other := (List.find?_range_eq_some.mp found).2.2 j before
  simp [used, names] at other

/-- A feed that subscribes where there is room subscribes to the stream after it (R42, R43). -/
theorem State.subscribeFound_subscribed {s : State} (store : s.store.wf = true) {src : Source} (room : s.store.hasRoom src = true)
    (f : FeedId) (w : Bool) : (s.subscribeFound f src w).store.subscribed f src = true := by
  obtain ⟨k, found, eq⟩ | ⟨k, unopened, free, eq⟩ | ⟨unopened, full, -⟩ := s.subscribeFound_cases f src w
  · rw [eq]
    obtain ⟨low, used, names⟩ := Store.openAt_some found
    have subs : hasFeed ((s.store.stream k).joined f w).subs f = true := by
      unfold StreamRecord.joined
      split
      · split <;> assumption
      · simp [hasFeed_addFeed]
    have same := s.store.setStream_stream store k ((s.store.stream k).joined f w)
    have first : (s.store.setStream k ((s.store.stream k).joined f w)).openAt src = some k := by
      refine Store.openAt_of_first low ?_ ?_ fun j before => ?_
      · rw [same]; exact StreamRecord.isOpen_of_hasFeed subs
      · rw [same, StreamRecord.joined_src, names]
      · rw [Store.setStream_stream_other _ _ (Nat.ne_of_gt before)]
        exact Store.openAt_first found j before
    dsimp only
    rw [Store.subscribed, first]
    dsimp only
    rw [same]
    exact subs
  · rw [eq]
    obtain ⟨low, -⟩ := Store.unusedAt_some free
    have subs : hasFeed (StreamRecord.opened f src w).subs f = true := by simp [StreamRecord.opened, hasFeed_oneFeed]
    have same := s.store.setStream_stream store k (StreamRecord.opened f src w)
    have first : (s.store.setStream k (StreamRecord.opened f src w)).openAt src = some k := by
      refine Store.openAt_of_first low ?_ ?_ fun j before => ?_
      · rw [same]; exact StreamRecord.isOpen_of_hasFeed subs
      · rw [same]; rfl
      · rw [Store.setStream_stream_other _ _ (Nat.ne_of_gt before)]
        exact fun ⟨used, names⟩ => Store.openAt_none unopened (Nat.lt_trans before low) used names
    dsimp only
    rw [Store.subscribed, first]
    dsimp only
    rw [same]
    exact subs
  · simp [Store.hasRoom, unopened, full] at room

theorem Store.hasRoom_of_subscribed {st : Store} {f : FeedId} {src : Source} (subs : st.subscribed f src = true) :
    st.hasRoom src = true := by
  unfold Store.subscribed at subs
  split at subs
  · next found => simp [Store.hasRoom, found]
  · nomatch subs

/-- The sources that the other entries of a feed claim do not read this entry. -/
theorem State.setLive_sourceTaken (s : State) (f : FeedId) (e : Nat) (v : Live) (src : Source) :
    (s.setLive f e v).sourceTaken f e src = s.sourceTaken f e src := by
  unfold State.sourceTaken
  rw [State.setLive_liveEntries]
  refine List.any_congr rfl fun k => ?_
  by_cases same : k = e
  · simp [same]
  · rw [State.setLive_live_other s f v (Ne.symm same)]

end Sys2Proof.Machine
end

section
/-! PROOFS. The revert countdown and the start of a revert (R137, R138). -/

namespace Sys2Proof.Machine

theorem exec_revertStart (s : State) (f : FeedId) (e : Nat) :
    exec (.revertStart f e) s = .next (if s.revertStarts f e then s.revertPart f e else s) := rfl

/-- The countdown at 0 and the start of the revert, on a state whose part of the boundary is taken (R138). -/
theorem State.countRevert_starts {s : State} {f : FeedId} {e n : Nat} {prot : Source} (whole : s.wf = true)
    (state : (s.live f e).estate = .fallback) (left : (s.live f e).revertLeft = some n) (last : n ≤ 1)
    (keeps : (s.live f e).protSrc = some prot) (allowed : s.revertAllowed f e prot = true) :
    let a := s.setLive f e { s.live f e with revertLeft := some (n - 1) }
    s.countRevert f e =
      (a.setLive f e
        { s.live f e with
          prevSrc := (s.live f e).curSrc, newSrc := some prot, windowLeft := 16, onMiss := some .force, owner := some .revert,
          revertLeft := none, estate := .outWait }).subscribeFound f prot true := by
  have written := State.setLive_live s f (State.live_sorted whole f) e
  have still (v : Live) : (s.setLive f e v).revertAllowed f e prot = true := by
    rw [State.revertAllowed, State.setLive_sourceTaken]
    exact allowed
  unfold State.countRevert
  generalize s.live f e = v at state left keeps ⊢
  cases v
  dsimp only at state left keeps ⊢
  subst state left keeps
  dsimp only
  rw [if_pos last, State.tryRevert, written]
  dsimp only
  rw [if_pos (still _), State.startRevert, written]
  rfl

/-- An entry written twice, and the subscribe of its feed as waiting. -/
theorem State.setLive_subscribeFound_facts {s : State} {src : Source} (whole : s.wf = true) (room : s.store.hasRoom src = true)
    (f : FeedId) (e : Nat) (v w : Live) :
    let t := ((s.setLive f e v).setLive f e w).subscribeFound f src true
    t.live f e = w ∧ (∀ j, j ≠ e → t.live f j = s.live f j) ∧ (∀ g, g ≠ f → t.map g = s.map g) ∧
    t.store.subscribed f src = true ∧ t.store.cells = s.store.cells ∧ t.mlt = s.mlt ∧ t.ssu = s.ssu ∧ t.feeds = s.feeds ∧
    t.ports = s.ports := by
  obtain ⟨store, -, -⟩ := s.wf_iff.mp whole
  have sorted := State.live_sorted ((moves_setLive s f e v).wf whole) f
  obtain ⟨frame, cells⟩ := ((s.setLive f e v).setLive f e w).subscribeFound_eq f src true
  have subscribed := State.subscribeFound_subscribed (s := (s.setLive f e v).setLive f e w) store room f true
  dsimp only
  generalize ((s.setLive f e v).setLive f e w).subscribeFound f src true = t at frame cells subscribed ⊢
  refine ⟨?_, fun j other => ?_, fun g other => ?_, subscribed, cells, ?_, ?_, ?_, ?_⟩
  · rw [frame]
    exact State.setLive_live _ f sorted e w
  · rw [frame]
    exact (State.setLive_live_other _ f w (Ne.symm other)).trans (State.setLive_live_other _ f v (Ne.symm other))
  · rw [frame]
    exact (State.setMap_map_other _ _ (Ne.symm other)).trans (State.setMap_map_other _ _ (Ne.symm other))
  all_goals
    rw [frame]
    rfl

/-- Settles O33: the revert starts as a splice toward ProtSrc. -/
theorem revertStartsAtZero : Obligations.RevertStartsAtZero := by
  unfold Obligations.RevertStartsAtZero
  refine ⟨fun s f e n prot whole owed state left last keeps free room => ?_, fun s f e other => ?_⟩
  · have hasRoom : s.store.hasRoom prot = true := room.elim Store.hasRoom_of_subscribed id
    have allowed : s.revertAllowed f e prot = true := by simp [State.revertAllowed, free, hasRoom]
    have starts : s.revertStarts f e = true := by simp [State.revertStarts, owed, state, left, last, keeps, allowed]
    have splice := State.countRevert_starts
      (s := { s with due := { s.due with reverts := upd s.due.reverts f (s.due.reverts.get f &&& ~~~ BitVec.twoPow 64 e) } })
      whole state left last keeps allowed
    have taken : s.revertPart f e = _ := (if_pos owed).trans splice
    rw [exec_revertStart, if_pos starts, taken]
    exact ⟨_, rfl, State.setLive_subscribeFound_facts
      (s := { s with due := { s.due with reverts := upd s.due.reverts f (s.due.reverts.get f &&& ~~~ BitVec.twoPow 64 e) } })
      whole hasRoom f e _ _⟩
  · rw [exec_revertStart, if_neg (by simp [State.revertStarts, other])]

end Sys2Proof.Machine
end

section
/-! SUPPORT. A departure as its feed composer sees it (section 5.2): one cell on its link, and nothing of another composer. -/

namespace Sys2Proof.Machine

/-- One feed sends a cell: its mode and state stay, and no other composer, port or response moves. -/
structure Sends (f : FeedId) (s t : State) : Prop where
  feeds : ∃ y : Feed, t.feeds = upd s.feeds f y ∧ y.sent.isSome = true ∧ y.state = (s.feed f).state ∧ y.pendMode = (s.feed f).pendMode
  slotFeeds : t.due.slotFeeds = s.due.slotFeeds
  cycleFeeds : t.due.cycleFeeds = s.due.cycleFeeds
  monitor : t.due.monitor = s.due.monitor
  sent : t.mlt.sent = s.mlt.sent
  ports : t.ports = s.ports
  responses : t.mlt.responses = s.mlt.responses

namespace Sends

theorem ofMoves {f : FeedId} {s t u v : State} (before : Moves s t) (sends : Sends f t u) (after : Moves u v) : Sends f s v := by
  obtain ⟨y, feeds, sent, state, mode⟩ := sends.feeds
  refine ⟨⟨y, ?_, sent, ?_, ?_⟩, ?_, ?_, ?_, ?_, ?_, ?_⟩
  · rw [after.feeds, feeds, before.feeds]
  · rw [state, before.feed]
  · rw [mode, before.feed]
  · exact after.aside.slotFeeds.trans (sends.slotFeeds.trans before.aside.slotFeeds)
  · exact after.aside.cycleFeeds.trans (sends.cycleFeeds.trans before.aside.cycleFeeds)
  · exact after.aside.monitor.trans (sends.monitor.trans before.aside.monitor)
  · exact after.sent.trans (sends.sent.trans before.sent)
  · exact after.ports.trans (sends.ports.trans before.ports)
  · exact after.responses.trans (sends.responses.trans before.responses)

theorem feed {f : FeedId} {s t : State} (h : Sends f s t) :
    (t.feed f).sent.isSome = true ∧ (t.feed f).state = (s.feed f).state ∧ (t.feed f).pendMode = (s.feed f).pendMode := by
  obtain ⟨y, feeds, sent, state, mode⟩ := h.feeds
  have here : t.feed f = y := by rw [State.feed, feeds, upd_get_same]
  rw [here]
  exact ⟨sent, state, mode⟩

theorem other {f g : FeedId} {s t : State} (h : Sends f s t) (other : g ≠ f) : t.feed g = s.feed g := by
  obtain ⟨y, feeds, -⟩ := h.feeds
  rw [State.feed, feeds, upd_get_other _ _ (Ne.symm other)]
  rfl

end Sends

theorem State.count_responses (s : State) (c : CounterId) (n : Nat) :
    (s.count c n).mlt.responses = s.mlt.responses ∧ (s.count c n).mlt.sent = s.mlt.sent := by
  by_cases h : min (s.counter c + n) 65535 = 65535 ∧ s.counter c < 65535 ∧ s.counters.satMark.get c.index = false
  · rw [State.count_saturates h]
    exact ⟨(moves_handReport ..).responses, (moves_handReport ..).sent⟩
  · rw [State.count_quiet h]
    exact ⟨rfl, rfl⟩

theorem State.countIf_responses (s : State) (p : Prop) [Decidable p] (c : CounterId) :
    (s.countIf p c).mlt.responses = s.mlt.responses ∧ (s.countIf p c).mlt.sent = s.mlt.sent := by
  unfold State.countIf
  split
  · exact s.count_responses c 1
  · exact ⟨rfl, rfl⟩

theorem sends_sendFill (s : State) (f : FeedId) : Sends f s (s.sendFill f) := by
  unfold State.sendFill
  dsimp only
  generalize hy : ({ s.feed f with
    fillCont := (s.feed f).fillCont + 1, sent := some (sentCell .fill Config.fillTag (s.feed f).fillCont []) } : Feed) = y
  have counted := (s.setFeed f y).count_eq (.feed f .fill) 1
  obtain ⟨responses, sent⟩ := (s.setFeed f y).count_responses (.feed f .fill) 1
  refine ⟨⟨y, ?_, by rw [← hy]; rfl, by rw [← hy], by rw [← hy]⟩, ?_, ?_, ?_, sent, ?_, responses⟩ <;> rw [counted] <;> rfl

theorem sends_sendEntry (s : State) (f : FeedId) (e slot : Nat) (c : CellRecord) (tick : BitVec 32) :
    Sends f s (s.sendEntry f e slot c tick) := by
  have sent : s.sendEntry f e slot c tick =
      State.release
        (State.countIf ((s.emit f (some (s.departCell f e c tick))).setLive f e
            { s.live f e with
              credit := (s.live f e).credit - s.unitCost, outCont := (s.live f e).outCont + 1,
              discPending := (s.live f e).discPending && !c.hdr.marked })
          (c.hdr.marked = true ∧ s.correctionOf c tick ≠ s.rawOf c tick) (.feed f .clamp)) f slot := rfl
  rw [sent]
  generalize ha : (s.emit f (some (s.departCell f e c tick))).setLive f e _ = a
  refine .ofMoves (.refl s) ?_ (moves_release _ f slot)
  have counted := a.countIf_eq (c.hdr.marked = true ∧ s.correctionOf c tick ≠ s.rawOf c tick) (.feed f .clamp)
  obtain ⟨responses, kept⟩ := a.countIf_responses (c.hdr.marked = true ∧ s.correctionOf c tick ≠ s.rawOf c tick) (.feed f .clamp)
  generalize a.countIf (c.hdr.marked = true ∧ s.correctionOf c tick ≠ s.rawOf c tick) (.feed f .clamp) = b at counted responses kept ⊢
  refine ⟨⟨{ s.feed f with sent := some (s.departCell f e c tick) }, ?_, rfl, rfl, rfl⟩, ?_, ?_, ?_, kept.trans ?_, ?_,
    responses.trans ?_⟩
  · rw [counted, ← ha]; rfl
  · rw [counted, ← ha]; rfl
  · rw [counted, ← ha]; rfl
  · rw [counted, ← ha]; rfl
  · rw [← ha]; rfl
  · rw [counted, ← ha]; rfl
  · rw [← ha]; rfl

theorem sends_sendSelected (s : State) (f : FeedId) (tick : BitVec 32) : Sends f s (s.sendSelected f tick) := by
  unfold State.sendSelected
  split
  · exact sends_sendFill s f
  · split
    · exact sends_sendFill s f
    · split
      · exact sends_sendFill s f
      · exact sends_sendEntry ..

theorem sends_depart (s : State) (f : FeedId) : Sends f s (s.depart f) :=
  .ofMoves ((Moves.foldl _ (moves_accrue f) _ s).trans (Moves.foldl _ (moves_evaluateHead _ f) _ _)) (sends_sendSelected ..)
    (moves_walkLanes _)

/-- A feed in RUNNING has no change of state to make, and departs (R79, R86). -/
theorem State.slotOfFeed_running {s : State} {f : FeedId} (running : (s.feed f).state = .running) (mode : (s.feed f).pendMode ≠ .test) :
    ∃ d, d.slotFeeds = s.due.slotFeeds ∧ d.walks = s.due.walks ∧ s.slotOfFeed f = State.depart { s with due := d } f := by
  have rests : ∃ d, d.slotFeeds = s.due.slotFeeds ∧ d.walks = s.due.walks ∧ s.changeAtCycle f = { s with due := d } := by
    unfold State.changeAtCycle
    split
    · refine ⟨{ s.due with cycleFeeds := dropFeed s.due.cycleFeeds f }, rfl, rfl, ?_⟩
      simp only [show State.feed { s with due := { s.due with cycleFeeds := dropFeed s.due.cycleFeeds f } } f = s.feed f from rfl,
        running]
    · exact ⟨s.due, rfl, rfl, rfl⟩
  obtain ⟨d, slots, walks, rests⟩ := rests
  refine ⟨d, slots, walks, ?_⟩
  unfold State.slotOfFeed
  rw [if_neg mode, rests]
  simp only [show State.feed { s with due := d } f = s.feed f from rfl, running]

/-- The part of a feed that departs at a slot boundary. -/
theorem State.slotPartFeed_running {s : State} {f : FeedId} (owed : hasFeed s.due.slotFeeds f = true)
    (running : (s.feed f).state = .running) (mode : (s.feed f).pendMode ≠ .test) :
    ∃ d, d.slotFeeds = dropFeed s.due.slotFeeds f ∧ s.slotPartFeed f = State.depart { s with due := d } f := by
  obtain ⟨d, slots, -, departs⟩ := State.slotOfFeed_running (s := { s with due := { s.due with slotFeeds := dropFeed s.due.slotFeeds f } })
    running mode
  exact ⟨d, slots, (if_pos owed).trans departs⟩

end Sys2Proof.Machine
end

section
/-! SUPPORT. Head evaluation (R88 to R90): the head cell of an entry, and what the evaluation of one entry leaves of the others. -/

namespace Sys2Proof.Machine

section
variable {s : State} {f : FeedId} {e slot : Nat} {tick : BitVec 32}

theorem State.cellsOf_of_headOf (head : s.headOf f e = some slot) : ∃ rest, s.cellsOf f e = slot :: rest := by
  unfold State.headOf Store.headCell at head
  unfold State.cellsOf
  cases source : (s.live f e).curSrc with
  | none =>
    rw [source] at head
    nomatch head
  | some src =>
    rw [source] at head
    exact List.head?_eq_some_iff.mp head

/-- A fresh head cell is left in its place (R88). -/
theorem State.freshen_fresh (head : s.headOf f e = some slot) (fresh : s.isStale slot tick = false) : s.freshen f e tick = s := by
  obtain ⟨rest, cells⟩ := State.cellsOf_of_headOf head
  rw [State.freshen, cells, State.dropStaleRun, fresh]
  rfl

theorem State.seekRun_found (head : s.headOf f e = some slot) (fresh : s.isStale slot tick = false)
    (boundary : s.store.isBoundary slot = true) : State.seekRun f tick (s.cellsOf f e) s = (s, true) := by
  obtain ⟨rest, cells⟩ := State.cellsOf_of_headOf head
  rw [cells, State.seekRun, fresh, boundary]
  rfl

theorem State.headBoundary_of (head : s.headOf f e = some slot) (boundary : s.store.isBoundary slot = true) :
    s.headBoundary f e = true := by
  rw [State.headBoundary, head]
  exact boundary

end

/-- What one entry's evaluation leaves alone: the live fields of every other entry. -/
structure OneEntry (f : FeedId) (e : Nat) (s t : State) : Prop where
  live : ∀ g j, g ≠ f ∨ j ≠ e → t.live g j = s.live g j

namespace OneEntry
variable {f : FeedId} {e : Nat} {s t u : State}

theorem refl (f : FeedId) (e : Nat) (s : State) : OneEntry f e s s := ⟨fun _ _ _ => rfl⟩

theorem trans (h : OneEntry f e s t) (h' : OneEntry f e t u) : OneEntry f e s u :=
  ⟨fun g j other => (h'.live g j other).trans (h.live g j other)⟩

theorem ofMaps (h : t.maps = s.maps) : OneEntry f e s t := ⟨fun g j _ => by simp only [State.live, State.map, h]⟩

theorem stored (h : Stored s t) : OneEntry f e s t := ofMaps h.maps

end OneEntry

theorem oneEntry_setLive (s : State) (f : FeedId) (e : Nat) (v : Live) : OneEntry f e s (s.setLive f e v) := by
  refine ⟨fun g j other => ?_⟩
  by_cases same : f = g
  · subst same
    exact State.setLive_live_other s f v (Ne.symm (other.resolve_left (not_not_intro rfl)))
  · exact State.setLive_live_feed s _ _ v same

/-- The end of a splice tells its owner: the schedule and the reports (R122 to R128). -/
theorem State.endSplice_eq (s : State) (f : FeedId) (e : Nat) (v : Live) (o : SpliceResult) (rev : RevertResult) :
    s.endSplice f e v o rev =
      { s with
        ssu := (s.endSplice f e v o rev).ssu, mlt := (s.endSplice f e v o rev).mlt, due := (s.endSplice f e v o rev).due } := by
  have left (t : State) (l : LaneId) (r : Nat) :
      t.leaveCompleted l r =
        { t with ssu := (t.leaveCompleted l r).ssu, mlt := (t.leaveCompleted l r).mlt, due := (t.leaveCompleted l r).due } := by
    simp only [State.leaveCompleted, State.handReport_offered]
    split <;> rfl
  unfold State.endSplice
  split
  · unfold State.enterOutcome State.setOutcomes
    split
    · dsimp only
      split
      · split
        · rw [left]; rfl
        · rfl
      · rfl
    · rfl
  · rw [State.handReport_offered]
  · rfl

theorem oneEntry_endSplice {f : FeedId} {e : Nat} (s : State) (g : FeedId) (j : Nat) (v : Live) (o : SpliceResult)
    (rev : RevertResult) : OneEntry f e s (s.endSplice g j v o rev) := .ofMaps (by rw [State.endSplice_eq])

theorem oneEntry_handReport {f : FeedId} {e : Nat} (s : State) (r : Report) : OneEntry f e s (s.handReport r) :=
  .ofMaps (by rw [State.handReport_eq])

theorem oneEntry_takeFallback (s : State) (f : FeedId) (e : Nat) (lost : Source) : OneEntry f e s (s.takeFallback f e lost) := by
  unfold State.takeFallback
  split
  · exact .refl f e s
  · exact ((oneEntry_setLive s f e _).trans (.stored ((stored_endNeed ..).trans (stored_subscribeFound ..)))).trans
      (oneEntry_handReport ..)

theorem oneEntry_loseNewSource (s : State) (f : FeedId) (e : Nat) : OneEntry f e s (s.loseNewSource f e) := by
  unfold State.loseNewSource
  dsimp only
  split
  · exact .refl f e s
  · split
    · exact ((oneEntry_endSplice ..).trans (oneEntry_setLive ..)).trans (oneEntry_takeFallback ..)
    · exact ((oneEntry_endSplice ..).trans (oneEntry_setLive ..)).trans ((oneEntry_setLive ..).trans (oneEntry_handReport ..))

theorem oneEntry_outPoint (s : State) (f : FeedId) (e : Nat) : OneEntry f e s (s.outPoint f e) := by
  have taken : OneEntry f e s (s.takeOutPoint f e) := by
    unfold State.takeOutPoint
    dsimp only
    split
    · exact .refl f e s
    · exact (oneEntry_setLive ..).trans (.stored ((stored_endNeedOf ..).trans (stored_takeUp ..)))
  unfold State.outPoint
  dsimp only
  split
  · exact .refl f e s
  · split
    · exact taken
    · exact taken.trans (oneEntry_loseNewSource ..)

theorem oneEntry_dropStale {f : FeedId} {e : Nat} (s : State) (g : FeedId) (slot : Nat) : OneEntry f e s (s.dropStale g slot) := by
  unfold State.dropStale
  split
  · refine OneEntry.trans (.stored (stored_release s g slot)) (.ofMaps ?_)
    rw [State.count_eq]
  · exact .refl f e s

theorem oneEntry_freshen {f : FeedId} {e : Nat} (s : State) (g : FeedId) (j : Nat) (tick : BitVec 32) :
    OneEntry f e s (s.freshen g j tick) := by
  unfold State.freshen
  generalize s.cellsOf g j = l
  induction l generalizing s with
  | nil => exact .refl f e s
  | cons k l ih =>
    unfold State.dropStaleRun
    split
    · exact (oneEntry_dropStale ..).trans (ih _)
    · exact .refl f e s

theorem oneEntry_seekRun {f : FeedId} {e : Nat} (s : State) (g : FeedId) (l : List Nat) (tick : BitVec 32) :
    OneEntry f e s (State.seekRun g tick l s).1 := by
  induction l generalizing s with
  | nil => exact .refl f e s
  | cons k l ih =>
    unfold State.seekRun
    split
    · exact (oneEntry_dropStale ..).trans (ih _)
    · split
      · exact .refl f e s
      · exact OneEntry.trans (.stored (stored_release s g k)) (ih _)

theorem oneEntry_evaluateInWait (s : State) (f : FeedId) (e : Nat) (tick : BitVec 32) :
    OneEntry f e s (s.evaluateInWait f e tick) := by
  unfold State.evaluateInWait
  have sought := oneEntry_seekRun (f := f) (e := e) s f (s.cellsOf f e) tick
  dsimp only
  split
  · exact sought.trans ((oneEntry_endSplice ..).trans (oneEntry_setLive ..))
  · exact sought

/-- The head evaluation of one entry leaves the live fields of every other (R88 to R90). -/
theorem oneEntry_evaluateHead (tick : BitVec 32) (f : FeedId) (s : State) (e : Nat) :
    OneEntry f e s (State.evaluateHead tick f s e) := by
  unfold State.evaluateHead
  split
  · exact .refl f e s
  · exact oneEntry_freshen ..
  · exact oneEntry_freshen ..
  · exact oneEntry_evaluateInWait ..
  · have fresh := oneEntry_freshen (f := f) (e := e) s f e tick
    dsimp only
    split
    · split
      · exact fresh.trans ((oneEntry_outPoint ..).trans (oneEntry_evaluateInWait ..))
      · exact fresh.trans ((oneEntry_outPoint ..).trans (oneEntry_freshen ..))
    · exact fresh

/-- An entry comes to its own evaluation in the state it had before the departure (R86). -/
theorem State.upToEntry_estate {s : State} (whole : s.wf = true) (f : FeedId) (e : Nat) :
    ((s.upToEntry f e).live f e).estate = (s.live f e).estate := by
  have accrued : ∀ (l : List Nat) (t : State), t.wf = true →
      ((l.foldl (State.accrue f) t).live f e).estate = (t.live f e).estate := fun l => by
    induction l with
    | nil => exact fun _ _ => rfl
    | cons k l ih =>
      intro t whole
      refine (ih _ ((moves_accrue f t k).wf whole)).trans ?_
      by_cases same : k = e
      · subst same
        rw [State.accrue, State.setLive_live t f (State.live_sorted whole f)]
      · rw [State.accrue, State.setLive_live_other t f _ same]
  have evaluated : ∀ (l : List Nat) (t : State), (∀ k ∈ l, k < e) →
      (l.foldl (State.evaluateHead s.stamp f) t).live f e = t.live f e := fun l => by
    induction l with
    | nil => exact fun _ _ => rfl
    | cons k l ih =>
      intro t before
      exact (ih _ fun j mem => before j (.tail _ mem)).trans
        ((oneEntry_evaluateHead _ f t k).live f e (.inr (Nat.ne_of_gt (before k (.head _)))))
  unfold State.upToEntry
  rw [evaluated _ _ fun k mem => of_decide_eq_true (List.mem_filter.mp mem).2, accrued _ s whole]

end Sys2Proof.Machine
end

section
/-! PROOFS. Out-points and in-points at a departure (R89, R90, R121, R122). -/

namespace Sys2Proof.Machine

/-- A departure that comes to an entry is the feed's part of the slot boundary (R94). -/
theorem State.departure_taken {s : State} {f : FeedId} (waits : s.slotReached = false) (owed : hasFeed s.due.slotFeeds f = true)
    (running : (s.feed f).state = .running) (mode : (s.feed f).pendMode ≠ .test) :
    s.departureDue f = true ∧
    let t := s.slotPartFeed f
    exec (.slotBoundary [.feed f] .listed) s = .next t ∧ hasFeed t.due.slotFeeds f = false ∧ (t.feed f).sent.isSome ∧
    (∀ g, g ≠ f → t.feed g = s.feed g) ∧ t.ports = s.ports ∧ t.mlt.responses = s.mlt.responses := by
  obtain ⟨d, slots, departs⟩ := State.slotPartFeed_running owed running mode
  have sends := sends_depart { s with due := d } f
  refine ⟨by simp [State.departureDue, owed, State.feedRunning, running, mode], exec_slotPart waits (.feed f), ?_⟩
  rw [departs]
  refine ⟨?_, sends.feed.1, fun g other => sends.other other, sends.ports, sends.responses⟩
  rw [sends.slotFeeds, slots, hasFeed_dropFeed]
  simp

theorem exec_outPoint (s : State) (f : FeedId) (e : Nat) :
    exec (.outPoint f e) s =
      .next (if s.departureDue f ∧ e ∈ s.liveEntries f ∧ (s.upToEntry f e).meetsOutPoint f e s.stamp then s.slotPartFeed f
        else s) := rfl

theorem exec_inPoint (s : State) (f : FeedId) (e : Nat) :
    exec (.inPoint f e) s =
      .next (if s.departureDue f ∧ e ∈ s.liveEntries f ∧ (s.upToEntry f e).meetsInPoint f e s.stamp then s.slotPartFeed f
        else s) := rfl

end Sys2Proof.Machine
end

section
/-! SUPPORT. One stream among operations on others, and a take-up (R44, R54, R116). -/

namespace Sys2Proof.Machine

/-- A record is OPEN under a stream. -/
def Store.Names (st : Store) (src : Source) (j : Nat) : Prop := (st.stream j).isOpen = true ∧ (st.stream j).src = src

/-- The records of one stream keep their stream, subscribers and waiting feeds, and no record joins them. -/
def Store.SameStream (src : Source) (st u : Store) : Prop :=
  ∀ j, st.Names src j ∨ u.Names src j →
    (u.stream j).src = (st.stream j).src ∧ (u.stream j).subs = (st.stream j).subs ∧ (u.stream j).waiting = (st.stream j).waiting

section
variable {src other : Source} {st u v : Store}

theorem Store.SameStream.refl (src : Source) (st : Store) : Store.SameStream src st st := fun _ _ => ⟨rfl, rfl, rfl⟩

theorem Store.SameStreams.one (h : st.SameStreams u) (src : Source) : Store.SameStream src st u := fun j _ => h j

theorem Store.SameStream.names (h : Store.SameStream src st u) (j : Nat) : u.Names src j ↔ st.Names src j := by
  constructor
  · intro named
    obtain ⟨names, subs, -⟩ := h j (.inr named)
    obtain ⟨used, same⟩ := named
    exact ⟨by simpa only [StreamRecord.isOpen, subs] using used, names.symm.trans same⟩
  · intro named
    obtain ⟨names, subs, -⟩ := h j (.inl named)
    obtain ⟨used, same⟩ := named
    exact ⟨by simpa only [StreamRecord.isOpen, subs] using used, names.trans same⟩

theorem Store.SameStream.trans (h : Store.SameStream src st u) (h' : Store.SameStream src u v) : Store.SameStream src st v := by
  intro j named
  have middle : u.Names src j := named.elim (h.names j).mpr (h'.names j).mp
  obtain ⟨names, subs, waiting⟩ := h j (.inr middle)
  obtain ⟨names', subs', waiting'⟩ := h' j (.inl middle)
  exact ⟨names'.trans names, subs'.trans subs, waiting'.trans waiting⟩

theorem Store.SameStream.openAt (h : Store.SameStream src st u) : u.openAt src = st.openAt src := by
  unfold Store.openAt
  congr 1
  funext j
  rw [Bool.eq_iff_iff, Bool.and_eq_true, Bool.and_eq_true, decide_eq_true_eq, decide_eq_true_eq]
  exact h.names j

theorem Store.SameStream.record (h : Store.SameStream src st u) {k : Nat} (found : st.openAt src = some k) :
    (u.stream k).src = (st.stream k).src ∧ (u.stream k).subs = (st.stream k).subs ∧ (u.stream k).waiting = (st.stream k).waiting := by
  obtain ⟨-, used, names⟩ := Store.openAt_some found
  exact h k (.inl ⟨used, names⟩)

theorem Store.SameStream.reads {f : FeedId} (h : Store.SameStream src st u) (reads : st.Reads f src) : u.Reads f src := by
  obtain ⟨k, found, subs, waits⟩ := reads
  obtain ⟨-, subs', waiting'⟩ := h.record found
  exact ⟨k, h.openAt.trans found, by rw [subs']; exact subs, by rw [waiting']; exact waits⟩

theorem Store.SameStream.subscribed (h : Store.SameStream src st u) (f : FeedId) : u.subscribed f src = st.subscribed f src := by
  unfold Store.subscribed
  rw [h.openAt]
  cases found : st.openAt src with
  | none => rfl
  | some k =>
    obtain ⟨-, subs, -⟩ := h.record found
    dsimp only
    rw [subs]

/-- A write of a record that is not of the stream, before or after it. -/
theorem Store.sameStream_setStream {k : Nat} {r : StreamRecord} (whole : st.wf = true) (before : ¬ st.Names src k)
    (after : ¬ (r.isOpen = true ∧ r.src = src)) : Store.SameStream src st (st.setStream k r) := by
  intro j named
  by_cases here : k = j
  · subst here
    refine absurd named (not_or.mpr ⟨before, ?_⟩)
    rw [Store.Names, Store.setStream_stream whole]
    exact after
  · rw [Store.setStream_stream_other _ _ here]
    exact ⟨rfl, rfl, rfl⟩

theorem Store.sameStream_leave {k : Nat} (whole : st.wf = true) (before : ¬ st.Names src k) (names : (st.stream k).src ≠ src)
    (f : FeedId) : Store.SameStream src st (st.leave k f) := by
  unfold Store.leave
  dsimp only
  split
  · exact Store.sameStream_setStream whole before fun h => by simp [StreamRecord.isOpen, StreamRecord.unused] at h
  · exact Store.sameStream_setStream whole before fun h => names h.2

end

section
variable {s : State} {f : FeedId} {src other : Source}

/-- A subscribe to another stream leaves this one alone. -/
theorem State.subscribeFound_sameStream (store : s.store.wf = true) (apart : other ≠ src) (f : FeedId) (w : Bool) :
    Store.SameStream src s.store (s.subscribeFound f other w).store := by
  obtain ⟨k, found, eq⟩ | ⟨k, -, free, eq⟩ | ⟨-, -, eq⟩ := s.subscribeFound_cases f other w <;> rw [eq]
  · obtain ⟨-, -, names⟩ := Store.openAt_some found
    exact Store.sameStream_setStream store (fun named => apart (names.symm.trans named.2))
      fun named => apart (names.symm.trans ((StreamRecord.joined_src ..).symm.trans named.2))
  · obtain ⟨-, unused⟩ := Store.unusedAt_some free
    exact Store.sameStream_setStream store (fun named => nomatch unused.symm.trans named.1) fun named => apart named.2
  · exact .refl _ _

/-- A withdraw from another stream leaves this one alone. -/
theorem State.withdraw_sameStream (store : s.store.wf = true) (apart : other ≠ src) (f : FeedId) :
    Store.SameStream src s.store (s.withdraw f other).store := by
  unfold State.withdraw
  split
  · next k found =>
    obtain ⟨-, -, names⟩ := Store.openAt_some found
    split
    · obtain ⟨same, whole⟩ := State.releaseAll_sameStreams store f (s.store.holding f other)
      have away : ((s.releaseAll f (s.store.holding f other)).store.stream k).src ≠ src := by
        rw [(same k).1, names]
        exact apart
      exact (same.one src).trans (Store.sameStream_leave whole (fun named => away named.2) away f)
    · exact .refl _ _
  · exact .refl _ _

theorem State.withdraw_store_wf (store : s.store.wf = true) (f : FeedId) (src : Source) : (s.withdraw f src).store.wf = true := by
  unfold State.withdraw
  split
  · split
    · obtain ⟨-, whole⟩ := State.releaseAll_sameStreams store f (s.store.holding f src)
      dsimp only [Store.leave]
      split <;> exact Store.setStream_wf whole ..
    · exact store
  · exact store

/-- The end of a need of another stream leaves this one alone (R116). -/
theorem State.endNeed_sameStream (store : s.store.wf = true) (apart : other ≠ src) (f : FeedId) (reading : Bool) :
    Store.SameStream src s.store (s.endNeed f other reading).store := by
  have withdrawn := State.withdraw_sameStream store apart f
  unfold State.endNeed
  split
  · exact .refl _ _
  · split
    · split
      · exact withdrawn.trans (State.subscribeFound_sameStream (State.withdraw_store_wf store f other) apart f true)
      · exact .refl _ _
    · exact withdrawn

/-- A feed reads a stream that it subscribes to after it took it up (R54). -/
theorem State.takeUp_reads (store : s.store.wf = true) (subs : s.store.subscribed f src = true) (preRoll : Bool) :
    (s.takeUp f src preRoll).store.Reads f src := by
  unfold Store.subscribed at subs
  unfold State.takeUp
  cases found : s.store.openAt src with
  | none =>
    rw [found] at subs
    nomatch subs
  | some k =>
    rw [found] at subs
    dsimp only at subs ⊢
    rw [if_pos subs]
    by_cases waits : hasFeed (s.store.stream k).waiting f = true
    · rw [if_pos waits]
      obtain ⟨low, used, names⟩ := Store.openAt_some found
      have written := s.store.setStream_stream store k { s.store.stream k with waiting := dropFeed (s.store.stream k).waiting f }
      have reads : (s.store.setStream k { s.store.stream k with waiting := dropFeed (s.store.stream k).waiting f }).Reads f src := by
        refine ⟨k, Store.openAt_of_first low (by rw [written]; exact used) (by rw [written]; exact names) fun j before => ?_, ?_, ?_⟩
        · rw [Store.setStream_stream_other _ _ (Nat.ne_of_gt before)]
          exact Store.openAt_first found j before
        · rw [written]; exact subs
        · rw [written]; simp [hasFeed_dropFeed]
      cases preRoll
      · exact reads
      · have whole := Store.setStream_wf store k { s.store.stream k with waiting := dropFeed (s.store.stream k).waiting f }
        obtain ⟨same, -⟩ := State.releaseAll_sameStreams
          (s := { s with store := s.store.setStream k { s.store.stream k with waiting := dropFeed (s.store.stream k).waiting f } })
          whole f (Store.preRoll (s.store.setStream k { s.store.stream k with waiting := dropFeed (s.store.stream k).waiting f })
            (Store.holding (s.store.setStream k { s.store.stream k with waiting := dropFeed (s.store.stream k).waiting f }) f src))
        exact (same.one src).reads reads
    · rw [if_neg waits]
      exact ⟨k, found, subs, Bool.eq_false_iff.mpr waits⟩

end

end Sys2Proof.Machine
end

section
/-! PROOFS. The out-point (R89, R94, R121). -/

namespace Sys2Proof.Machine

theorem State.setLive_map_other (s : State) {f g : FeedId} (e : Nat) (v : Live) (other : g ≠ f) :
    (s.setLive f e v).map g = s.map g := State.setMap_map_other _ _ (Ne.symm other)

/-- The four steps of an out-point where the port of the new source is LIVE (R121). -/
theorem State.outPoint_facts {s : State} {f : FeedId} {e : Nat} {old new : Source} (whole : s.wf = true)
    (reads : (s.live f e).curSrc = some old) (goes : (s.live f e).newSrc = some new) (apart : old ≠ new)
    (port : (s.port new.port).state = .live) (subs : s.store.subscribed f new = true) :
    let t := s.outPoint f e
    t.live f e = { s.live f e with curSrc := some new, estate := .inWait } ∧
    (∀ j, j ≠ e → t.live f j = s.live f j) ∧ (∀ g, g ≠ f → t.map g = s.map g) ∧ t.store.Reads f new ∧
    t.feeds = s.feeds ∧ t.ports = s.ports ∧ t.ssu = s.ssu ∧ t.mlt.responses = s.mlt.responses := by
  have steps : s.outPoint f e =
      (((s.setLive f e { s.live f e with curSrc := some new, estate := .inWait }).endNeed f old true).takeUp f new true) := by
    unfold State.outPoint State.takeOutPoint
    dsimp only
    rw [goes, reads]
    exact if_pos (decide_eq_true port)
  generalize ({ s.live f e with curSrc := some new, estate := .inWait } : Live) = v at steps ⊢
  have ended := stored_endNeed (s.setLive f e v) f old true
  obtain ⟨store, -, -⟩ := s.wf_iff.mp whole
  have same := State.endNeed_sameStream (s := s.setLive f e v) store apart f true
  have moves := (moves_setLive s f e v).trans (moves_endNeed (s.setLive f e v) f old true)
  generalize (s.setLive f e v).endNeed f old true = a at steps ended same moves
  obtain ⟨wholeA, -, -⟩ := a.wf_iff.mp (moves.wf whole)
  have taken := State.takeUp_reads wholeA ((same.subscribed f).trans subs) true
  have frame := ended.trans (stored_takeUp a f new true)
  dsimp only
  rw [steps]
  refine ⟨?_, fun j other => ?_, fun g other => ?_, taken, frame.feeds, frame.ports, frame.ssu,
    (moves.trans (moves_takeUp a f new true)).responses⟩
  · exact (frame.live f e).trans (State.setLive_live s f (State.live_sorted whole f) e v)
  · exact (frame.live f j).trans (State.setLive_live_other s f v (Ne.symm other))
  · exact (frame.map g).trans (s.setLive_map_other e v other)

/-- Settles O28: the departure that meets an out-point, the four steps, and an entry that meets none. -/
theorem outPointLeavesOldSource : Obligations.OutPointLeavesOldSource := by
  unfold Obligations.OutPointLeavesOldSource
  refine ⟨fun s f e slot waits owed running mode live => ?_, fun s f e slot tick old new whole state reads goes apart head fresh
    boundary port subs => ?_, fun s f e whole other => ?_⟩
  · intro u state head fresh boundary
    obtain ⟨due, taken⟩ := State.departure_taken waits owed running mode
    have meets : u.meetsOutPoint f e s.stamp = true := by
      rw [State.meetsOutPoint, State.freshen_fresh head fresh, State.headBoundary_of head boundary]
      simp [state]
    exact ⟨s.slotPartFeed f, by rw [exec_outPoint, if_pos ⟨due, live, meets⟩], taken⟩
  · obtain ⟨here, there, others, taken, feeds, ports, ssu, responses⟩ := State.outPoint_facts whole reads goes apart port subs
    have evaluated : State.evaluateHead tick f s e = (s.outPoint f e).evaluateInWait f e tick := by
      simp only [State.evaluateHead, state, State.freshen_fresh head fresh, State.headBoundary_of head boundary, if_true]
      rw [if_pos (by rw [here])]
    exact ⟨evaluated, here, there, others, taken, feeds, ports, ssu, responses⟩
  · have misses : ¬ (s.upToEntry f e).meetsOutPoint f e s.stamp = true := fun meets => by
      have state := (Bool.and_eq_true_iff.mp meets).1
      rw [State.upToEntry_estate whole] at state
      exact other (of_decide_eq_true state)
    rw [exec_outPoint, if_neg fun h => misses h.2.2]

/-- The in-point of an entry in IN-WAIT with a fresh boundary cell at its head (R90, R122). -/
theorem State.evaluateHead_inPoint {s : State} {f : FeedId} {e slot : Nat} {tick : BitVec 32}
    (state : (s.live f e).estate = .inWait) (head : s.headOf f e = some slot) (fresh : s.isStale slot tick = false)
    (boundary : s.store.isBoundary slot = true) :
    State.evaluateHead tick f s e = (s.endSplice f e (s.live f e) .done .done).setLive f e (s.live f e).landed := by
  simp only [State.evaluateHead, state, State.evaluateInWait, State.seekRun_found head fresh boundary, if_true]
  rfl

theorem SpliceRecord.startedCount_ne_zero {x : SpliceRecord} {g : FeedId} (mem : (g, SpliceResult.started) ∈ x.outcomes) :
    x.startedCount ≠ 0 := fun none => (x.startedCount_eq_zero_iff.mp none) ⟨g, mem⟩

theorem mem_finishItem_other {f g : FeedId} {o : SpliceResult} {os : List (FeedId × SpliceResult)} (other : g ≠ f)
    (mem : (g, SpliceResult.started) ∈ os) : (g, SpliceResult.started) ∈ finishItem f o os :=
  List.mem_map.mpr ⟨_, mem, if_neg fun h => other h.1⟩

theorem not_mem_finishItem {f : FeedId} {o : SpliceResult} {os : List (FeedId × SpliceResult)} (final : o ≠ .started)
    (last : ∀ g, g ≠ f → (g, SpliceResult.started) ∉ os) : ¬ ∃ g, (g, SpliceResult.started) ∈ finishItem f o os := by
  rintro ⟨g, mem⟩
  obtain ⟨⟨h, p⟩, mem, eq⟩ := List.mem_map.mp mem
  dsimp only at eq
  split at eq
  · exact final (Prod.ext_iff.mp eq).2
  · next kept =>
    obtain ⟨hg, hp⟩ := Prod.mk.inj eq
    subst hg hp
    exact kept ⟨Classical.byContradiction fun other => last _ other mem, rfl⟩

/-- An outcome behind which other splices of the record still run (R122 to R126). -/
theorem State.enterOutcome_runs {s : State} {r : Nat} {f g : FeedId} {o : SpliceResult} (armed : (s.record r).status = .armed)
    (other : g ≠ f) (mem : (g, SpliceResult.started) ∈ (s.record r).outcomes) :
    s.enterOutcome r f o = s.setRecord r { s.record r with outcomes := finishItem f o (s.record r).outcomes } := by
  rw [State.enterOutcome, if_pos armed, State.setOutcomes]
  dsimp only
  exact if_neg fun h => SpliceRecord.startedCount_ne_zero (mem_finishItem_other other mem) h.2

theorem State.armedLane_of_only {s : State} {l : LaneId} {r : Nat} (armed : (s.lane l).state = .armed) (here : (s.lane l).curRec = r)
    (alone : ∀ l', l' ≠ l → (s.lane l').curRec ≠ r) : s.armedLane r = some l := by
  have lanes : ∀ l, l ∈ allLanes := by decide
  unfold State.armedLane
  cases found : allLanes.find? (fun l => ((s.lane l).state = .armed || (s.lane l).state = .stopping) && (s.lane l).curRec = r) with
  | none =>
    have miss := List.find?_eq_none.mp found l (lanes l)
    simp [armed, here] at miss
  | some l' =>
    have stands := List.find?_some found
    have same : (s.lane l').curRec = r := of_decide_eq_true (Bool.and_eq_true_iff.mp stands).2
    exact congrArg some (Classical.byContradiction fun other => alone l' other same)

/-- The outcome that completes a record (R128). -/
theorem State.enterOutcome_completes {s : State} {l : LaneId} {r : Nat} {f : FeedId} {o : SpliceResult}
    (armed : (s.record r).status = .armed) (final : o ≠ .started)
    (last : ∀ g, g ≠ f → (g, SpliceResult.started) ∉ (s.record r).outcomes) (lane : s.armedLane r = some l) :
    s.enterOutcome r f o =
      (s.setRecord r { s.record r with status := .complete, outcomes := finishItem f o (s.record r).outcomes }).leaveCompleted l r := by
  have ended : ({ s.record r with outcomes := finishItem f o (s.record r).outcomes } : SpliceRecord).startedCount = 0 :=
    (SpliceRecord.startedCount_eq_zero_iff _).mpr (not_mem_finishItem final last)
  rw [State.enterOutcome, if_pos armed, State.setOutcomes]
  dsimp only
  rw [if_pos ⟨armed, ended⟩, lane]

/-- The lane of a record that has just completed (R128). -/
theorem State.leaveCompleted_written {s : State} (whole : s.wf = true) {l : LaneId} {r : Nat} (x : SpliceRecord)
    (armed : (s.lane l).state = .armed) :
    let complete := (s.setRecord r x).handReport (.spliceOutcome l r .complete x.outcomes)
    (x.goesOn = false → (s.setRecord r x).leaveCompleted l r = complete.setLane l { s.lane l with state := .stopped }) ∧
    (x.goesOn = true →
      (s.setRecord r x).leaveCompleted l r = { complete with due := { s.due with walks := s.due.walks ++ [l] } }) := by
  obtain ⟨-, -, records⟩ := s.wf_iff.mp whole
  have written : (s.setRecord r x).record r = x := State.setRecord_record s (Table.sorted_of_wf records) r x
  unfold State.leaveCompleted
  dsimp only
  rw [written, State.handReport_eq]
  refine ⟨fun ends => ?_, fun goes => ?_⟩
  · have stays : ¬ (((s.setRecord r x).lane l).state = .armed ∧ x.goesOn = true) := fun h => nomatch ends.symm.trans h.2
    rw [if_neg stays]
    rfl
  · have leaves : ((s.setRecord r x).lane l).state = .armed ∧ x.goesOn = true := ⟨armed, goes⟩
    rw [if_pos leaves]
    rfl

theorem State.endSplice_revert {s : State} {f : FeedId} {e : Nat} {v : Live} (owner : v.owner = some .revert) (o : SpliceResult)
    (rev : RevertResult) : s.endSplice f e v o rev = s.handReport (.entryReverted f e (s.entry f e).outTag v.protSrc rev) := by
  rw [State.endSplice, owner]

theorem State.endSplice_lane {s : State} {f : FeedId} {e : Nat} {v : Live} {l : LaneId} {r : Nat} (owner : v.owner = some (.lane l r))
    (o : SpliceResult) (rev : RevertResult) : s.endSplice f e v o rev = s.enterOutcome r f o := by
  rw [State.endSplice, owner]

/-- Settles O29: the departure that meets an in-point, the splice that lands, and an entry that finds none. -/
theorem inPointLandsSplice : Obligations.InPointLandsSplice := by
  unfold Obligations.InPointLandsSplice
  refine ⟨fun s f e slot waits owed running mode live => ?_, fun s f e slot tick whole state head fresh boundary => ?_,
    fun s f e whole inWait outWait => ?_⟩
  · intro u state head fresh boundary
    obtain ⟨due, taken⟩ := State.departure_taken waits owed running mode
    have meets : u.meetsInPoint f e s.stamp = true := by
      rw [State.meetsInPoint, State.findsInPoint, State.seekRun_found head fresh boundary]
      simp [state]
    exact ⟨s.slotPartFeed f, by rw [exec_inPoint, if_pos ⟨due, live, meets⟩], taken⟩
  · have lands := State.evaluateHead_inPoint state head fresh boundary
    intro v onAir
    refine ⟨fun owner => ?_, fun l r owner armed => ?_⟩
    · rw [State.endSplice_revert owner] at lands
      exact lands
    · rw [State.endSplice_lane owner] at lands
      intro done
      have items : finishItem f .done (s.record r).outcomes = done := map_finished ..
      refine ⟨fun ⟨g, other, mem⟩ => ?_, fun last stands here alone => ?_⟩
      · rw [State.enterOutcome_runs armed other mem, items] at lands
        exact lands
      · rw [State.enterOutcome_completes armed (by decide) last (State.armedLane_of_only stands here alone), items] at lands
        obtain ⟨stops, goes⟩ := State.leaveCompleted_written (s := s) whole { s.record r with status := .complete, outcomes := done }
          stands
        exact ⟨fun ends => lands.trans (congrArg (State.setLive · f e onAir) (stops ends)),
          fun continues => lands.trans (congrArg (State.setLive · f e onAir) (goes continues))⟩
  · have misses : ¬ (s.upToEntry f e).meetsInPoint f e s.stamp = true := fun meets => by
      simp only [State.meetsInPoint, State.findsInPoint, State.meetsOutPoint, State.upToEntry_estate whole, decide_eq_false inWait,
        decide_eq_false outWait, Bool.false_and, Bool.or_self] at meets
      nomatch meets
    rw [exec_inPoint, if_neg fun h => misses h.2.2]

end Sys2Proof.Machine
end

section
/-! PROOFS. A slot boundary taken whole (sections 5.1 and 9.1): every sending link carries one cell. -/

namespace Sys2Proof.Machine

/-- A feed's link carries a cell exactly while the feed is in RUNNING or TEST (R79). -/
def Feed.carriesCell (x : Feed) : Prop := x.sent.isSome = true ↔ (x.state = .running ∨ x.state = .test)

/-- The change of state that a feed makes as a slot boundary reaches it (R82, R84, R85). -/
def State.changeAtSlot (s : State) (f : FeedId) : State :=
  if (s.feed f).pendMode = .test then s.enterTest f else s.changeAtCycle f

theorem State.slotOfFeed_eq (s : State) (f : FeedId) :
    s.slotOfFeed f =
      match ((s.changeAtSlot f).feed f).state with
      | .running => (s.changeAtSlot f).depart f
      | .test => (s.changeAtSlot f).sendPattern f
      | _ => (s.changeAtSlot f).emit f none := rfl

/-- A step of one feed composer at a boundary: no other composer moves, the boundaries due to the others stay due, and a change
that a cycle boundary owes a feed can only be made. -/
structure OneFeed (f : FeedId) (s t : State) : Prop where
  others : ∀ g, g ≠ f → t.feed g = s.feed g
  slotFeeds : t.due.slotFeeds = s.due.slotFeeds
  cycleFeeds : ∀ g, hasFeed s.due.cycleFeeds g = false → hasFeed t.due.cycleFeeds g = false
  monitor : t.due.monitor = s.due.monitor
  sent : t.mlt.sent = s.mlt.sent

namespace OneFeed

variable {f : FeedId} {s t u : State}

theorem refl (f : FeedId) (s : State) : OneFeed f s s := ⟨fun _ _ => rfl, rfl, fun _ h => h, rfl, rfl⟩

theorem trans (h : OneFeed f s t) (h' : OneFeed f t u) : OneFeed f s u :=
  ⟨fun g other => (h'.others g other).trans (h.others g other), h'.slotFeeds.trans h.slotFeeds,
    fun g none => h'.cycleFeeds g (h.cycleFeeds g none), h'.monitor.trans h.monitor, h'.sent.trans h.sent⟩

theorem ofMoves (h : Moves s t) : OneFeed f s t :=
  ⟨fun g _ => h.feed g, h.aside.slotFeeds, fun g none => by rw [h.aside.cycleFeeds]; exact none, h.aside.monitor, h.sent⟩

theorem setFeed (f : FeedId) (s : State) (x : Feed) : OneFeed f s (s.setFeed f x) :=
  ⟨fun _ other => State.setFeed_feed_other _ _ (Ne.symm other), rfl, fun _ h => h, rfl, rfl⟩

theorem dropChange (f : FeedId) (s : State) : OneFeed f s { s with due := { s.due with cycleFeeds := dropFeed s.due.cycleFeeds f } } :=
  ⟨fun _ _ => rfl, rfl, fun g none => by rw [hasFeed_dropFeed, none]; rfl, rfl, rfl⟩

end OneFeed

theorem Sends.oneFeed {f : FeedId} {s t : State} (h : Sends f s t) : OneFeed f s t :=
  ⟨fun _ other => h.other other, h.slotFeeds, fun g none => by rw [h.cycleFeeds]; exact none, h.monitor, h.sent⟩

theorem oneFeed_enterTest (s : State) (f : FeedId) :
    OneFeed f s (s.enterTest f) ∧ hasFeed (s.enterTest f).due.cycleFeeds f = false := by
  have stopped : Moves s (if s.feedNeeds f then (s.feedStop f).withdrawAll f else s) := by
    split
    · exact (moves_feedStop s f).trans (moves_withdrawAll _ f)
    · exact .refl s
  have rested := OneFeed.ofMoves (f := f) (stopped.trans (moves_restEntries _ f))
  unfold State.enterTest
  dsimp only
  generalize State.restEntries _ f = b at rested ⊢
  generalize hc : b.setFeed f _ = c
  have entered : OneFeed f b c := hc ▸ OneFeed.setFeed f b _
  generalize hd : ({ c with due := { c.due with cycleFeeds := dropFeed c.due.cycleFeeds f } } : State) = d
  have dropped : OneFeed f c d := hd ▸ OneFeed.dropChange f c
  have made : hasFeed d.due.cycleFeeds f = false := by rw [← hd]; simp [hasFeed_dropFeed]
  have walked := OneFeed.ofMoves (f := f) (moves_walkLanes d)
  exact ⟨rested.trans (entered.trans (dropped.trans walked)), walked.cycleFeeds f made⟩

theorem oneFeed_changeAtCycle (s : State) (f : FeedId) : OneFeed f s (s.changeAtCycle f) := by
  obtain ⟨others, -, slotFeeds, monitor, change⟩ := s.changeAtCycle_frame f
  have sent : (s.changeAtCycle f).mlt.sent = s.mlt.sent := (acts_changeAtCycle s f).sent
  refine ⟨others, slotFeeds, fun g none => ?_, monitor, sent⟩
  obtain ⟨rests, -⟩ | dropped := change
  · rw [rests]; exact none
  · rw [dropped, hasFeed_dropFeed, none]; rfl

/-- The change of state is made, and a cycle boundary owes the feed none after it. -/
theorem oneFeed_changeAtSlot (s : State) (f : FeedId) :
    OneFeed f s (s.changeAtSlot f) ∧ hasFeed (s.changeAtSlot f).due.cycleFeeds f = false := by
  unfold State.changeAtSlot
  split
  · exact oneFeed_enterTest s f
  · next mode =>
    refine ⟨oneFeed_changeAtCycle s f, ?_⟩
    obtain ⟨-, -, -, -, change⟩ := s.changeAtCycle_frame f
    obtain ⟨rests, none | comes⟩ | dropped := change
    · rw [rests]; exact none
    · simp [State.testComes, mode] at comes
    · rw [dropped]; simp [hasFeed_dropFeed]

/-- A feed that takes its slot boundary sends its cell exactly in RUNNING and TEST (R79). -/
theorem State.slotOfFeed_carriesCell (s : State) (f : FeedId) :
    OneFeed f s (s.slotOfFeed f) ∧ hasFeed (s.slotOfFeed f).due.cycleFeeds f = false ∧ ((s.slotOfFeed f).feed f).carriesCell := by
  obtain ⟨changed, made⟩ := oneFeed_changeAtSlot s f
  rw [s.slotOfFeed_eq f]
  generalize s.changeAtSlot f = a at changed made ⊢
  unfold Feed.carriesCell
  cases state : (a.feed f).state with
  | running =>
    have departs := sends_depart a f
    obtain ⟨sent, kept, -⟩ := departs.feed
    exact ⟨changed.trans departs.oneFeed, departs.oneFeed.cycleFeeds f made, by simp [sent, kept, state]⟩
  | test =>
    have sends := OneFeed.setFeed f a
    refine ⟨changed.trans (sends _), made, ?_⟩
    rw [show (a.sendPattern f).feed f = _ from State.setFeed_feed ..]
    simp [state]
  | disabled =>
    refine ⟨changed.trans (OneFeed.setFeed f a _), made, ?_⟩
    rw [show (a.emit f none).feed f = _ from State.setFeed_feed ..]
    simp [state]
  | starting =>
    refine ⟨changed.trans (OneFeed.setFeed f a _), made, ?_⟩
    rw [show (a.emit f none).feed f = _ from State.setFeed_feed ..]
    simp [state]

/-- Every party of a slot boundary either has still to take it, or has its cell on its link. -/
structure State.Carried (s : State) : Prop where
  feeds : ∀ f, hasFeed s.due.slotFeeds f = true ∨ (hasFeed s.due.cycleFeeds f = false ∧ (s.feed f).carriesCell)
  monitor : s.due.monitor = true ∨ s.mlt.sent.isSome = true

theorem State.Carried.slotPartFeed {s : State} (carried : s.Carried) (g : FeedId) : (s.slotPartFeed g).Carried := by
  obtain ⟨feeds, monitor⟩ := carried
  unfold State.slotPartFeed
  split
  · obtain ⟨one, made, cell⟩ := State.slotOfFeed_carriesCell { s with due := { s.due with slotFeeds := dropFeed s.due.slotFeeds g } } g
    refine ⟨fun f => ?_, ?_⟩
    · by_cases own : f = g
      · subst own; exact .inr ⟨made, cell⟩
      · obtain waits | ⟨none, cell⟩ := feeds f
        · exact .inl (by rw [one.slotFeeds]; simp [hasFeed_dropFeed, waits, own])
        · exact .inr ⟨one.cycleFeeds f none, by rw [one.others f own]; exact cell⟩
    · rw [one.monitor, one.sent]; exact monitor
  · exact ⟨feeds, monitor⟩

theorem State.monitorSend_sent (s : State) : s.monitorSend.mlt.sent.isSome = true := by
  unfold State.monitorSend
  split
  · rfl
  · split <;> rfl

theorem State.monitorSend_eq (s : State) : s.monitorSend = { s with mlt := s.monitorSend.mlt } := by
  unfold State.monitorSend
  split
  · rfl
  · split <;> rfl

theorem State.Carried.slotPartMonitor {s : State} (carried : s.Carried) : s.slotPartMonitor.Carried := by
  obtain ⟨feeds, monitor⟩ := carried
  unfold State.slotPartMonitor
  split
  · refine ⟨?_, .inr (State.monitorSend_sent _)⟩
    rw [State.monitorSend_eq]
    exact feeds
  · exact ⟨feeds, monitor⟩

theorem State.Carried.slotPart {s : State} (carried : s.Carried) (p : SlotPart) : (s.slotPart p).Carried := by
  cases p with
  | feed f => exact carried.slotPartFeed f
  | monitor => exact carried.slotPartMonitor

theorem State.Carried.slotParts {s : State} (carried : s.Carried) (l : List SlotPart) : (s.slotParts l).Carried := by
  induction l generalizing s with
  | nil => exact carried
  | cons p l ih => exact ih (carried.slotPart p)

/-- The slot boundary handed on waits for every party (R8). -/
theorem State.openSlot_carried (s : State) : s.openSlot.Carried := by
  have waits : s.openSlot.due.slotFeeds = BitVec.allOnes 8 ∧ s.openSlot.due.monitor = true := by
    unfold State.openSlot
    dsimp only
    split <;> exact ⟨rfl, rfl⟩
  obtain ⟨feeds, monitor⟩ := waits
  refine ⟨fun f => .inl ?_, .inl monitor⟩
  rw [feeds, hasFeed, BitVec.getLsbD_allOnes]
  exact decide_eq_true f.isLt

theorem State.slotPart_slotFeeds (s : State) (p : SlotPart) (f : FeedId) :
    hasFeed (s.slotPart p).due.slotFeeds f = (hasFeed s.due.slotFeeds f && decide (p ≠ .feed f)) := by
  cases p with
  | monitor =>
    have kept : s.slotPartMonitor.due.slotFeeds = s.due.slotFeeds := by
      unfold State.slotPartMonitor
      split
      · rw [State.monitorSend_eq]
      · rfl
    simp [State.slotPart, kept]
  | feed g =>
    simp only [State.slotPart, State.slotPartFeed]
    split
    · obtain ⟨one, -⟩ := State.slotOfFeed_carriesCell { s with due := { s.due with slotFeeds := dropFeed s.due.slotFeeds g } } g
      rw [one.slotFeeds, hasFeed_dropFeed]
      simp [eq_comm]
    · next none =>
      by_cases own : f = g
      · subst own; simp [none]
      · simp [Ne.symm own]

theorem State.slotPart_monitor_due (s : State) (p : SlotPart) :
    (s.slotPart p).due.monitor = (s.due.monitor && decide (p ≠ .monitor)) := by
  cases p with
  | monitor =>
    simp only [State.slotPart, State.slotPartMonitor]
    split
    · rw [State.monitorSend_eq]; simp
    · next none => simp [none]
  | feed g =>
    simp only [State.slotPart, State.slotPartFeed]
    split
    · obtain ⟨one, -⟩ := State.slotOfFeed_carriesCell { s with due := { s.due with slotFeeds := dropFeed s.due.slotFeeds g } } g
      rw [one.monitor]
      simp
    · simp

/-- No party that has been listed has still to take the boundary. -/
theorem State.slotParts_due (s : State) (l : List SlotPart) :
    (∀ f, SlotPart.feed f ∈ l → hasFeed (s.slotParts l).due.slotFeeds f = false) ∧
      (SlotPart.monitor ∈ l → (s.slotParts l).due.monitor = false) := by
  have taken : (∀ f, hasFeed s.due.slotFeeds f = false ∨ SlotPart.feed f ∈ l → hasFeed (s.slotParts l).due.slotFeeds f = false) ∧
      (s.due.monitor = false ∨ SlotPart.monitor ∈ l → (s.slotParts l).due.monitor = false) := by
    induction l generalizing s with
    | nil => exact ⟨fun f h => h.elim id (by simp), fun h => h.elim id (by simp)⟩
    | cons p l ih =>
      obtain ⟨feeds, monitor⟩ := ih (s.slotPart p)
      refine ⟨fun f h => feeds f ?_, fun h => monitor ?_⟩
      · rw [s.slotPart_slotFeeds, List.mem_cons] at *
        obtain none | rfl | later := h
        · exact .inl (by simp [none])
        · exact .inl (by simp)
        · exact .inr later
      · rw [s.slotPart_monitor_due, List.mem_cons] at *
        obtain none | rfl | later := h
        · exact .inl (by simp [none])
        · exact .inl (by simp)
        · exact .inr later
  exact ⟨fun f h => taken.1 f (.inr h), fun h => taken.2 (.inr h)⟩

/-- A cycle boundary that owes no feed a change leaves every feed as it is. -/
theorem State.cycleParts_aside {s : State} (none : ∀ f, hasFeed s.due.cycleFeeds f = false) (l : List CyclePart) :
    Aside s (s.cycleParts l) := by
  induction l generalizing s with
  | nil => exact Aside.refl s
  | cons p l ih =>
    have stays : Aside s (s.cyclePart p) := by
      by_cases feed : ∃ f, p = .feed f
      · obtain ⟨f, rfl⟩ := feed
        have rests : s.changeAtCycle f = s := by
          unfold State.changeAtCycle
          rw [none f]
          rfl
        rw [State.cyclePart, rests]
        exact Aside.refl s
      · exact aside_cyclePart s fun f own => feed ⟨f, own⟩
    exact stays.trans (ih fun f => by rw [stays.cycleFeeds]; exact none f)

/-- When every party has taken its part of a slot boundary, each link carries its cell (R79, R158). -/
theorem State.Carried.closeSlot {s : State} (carried : s.Carried) :
    (s.closeSlot .whole).mlt.sent.isSome = true ∧ ∀ f, ((s.closeSlot .whole).feed f).carriesCell := by
  obtain ⟨feeds, monitor⟩ := carried.slotParts allSlotParts
  obtain ⟨fed, sent⟩ := s.slotParts_due allSlotParts
  have all : ∀ f, hasFeed (s.slotParts allSlotParts).due.cycleFeeds f = false ∧ ((s.slotParts allSlotParts).feed f).carriesCell :=
    fun f => (feeds f).resolve_left (by rw [fed f (by simp [allSlotParts, mem_allFeeds])]; simp)
  have carries := monitor.resolve_left (by rw [sent (by simp [allSlotParts])]; simp)
  have aside := State.cycleParts_aside (fun f => (all f).1) allCycleParts
  have silent := (s.slotParts allSlotParts).silent_closeCycle .whole
  refine ⟨?_, fun f => ?_⟩
  · rw [State.closeSlot, silent.monitor]
    exact carries
  · rw [State.closeSlot, State.closeCycle, aside.feed f]
    exact (all f).2

/-- The fill cell of a feed (R93). -/
theorem sentCell_fill (cont : BitVec 4) :
    sentCell .fill Config.fillTag cont [] =
      { hdr :=
          { kind := .fill, tag := 4095, boundary := false, marked := false, disc := false, cont := cont,
            check := crc8 [0x7F, 0xFC, cont.setWidth 8] }
        payload := List.replicate 156 0 } := by
  have bytes : ∀ cont : BitVec 4,
      headerBytes (Header.word
        { kind := .fill, tag := Config.fillTag, boundary := false, marked := false, disc := false, cont := cont, check := 0 }) =
        [0x7F, 0xFC, cont.setWidth 8] := by decide
  rw [sentCell, Header.sealed, bytes]
  rfl

/-- A departure that finds nothing to choose sends a fill cell (R93). -/
theorem State.sendFill_facts (s : State) (f : FeedId) :
    let t := s.sendFill f
    t.feed f =
        { s.feed f with
          fillCont := (s.feed f).fillCont + 1, sent := some (sentCell .fill Config.fillTag (s.feed f).fillCont []) } ∧
      t.counter (.feed f .fill) = min (s.counter (.feed f .fill) + 1) 65535 ∧
      (∀ g, g ≠ f → t.feed g = s.feed g) ∧ t.store = s.store ∧ t.maps = s.maps := by
  unfold State.sendFill
  dsimp only
  generalize ({ s.feed f with
    fillCont := (s.feed f).fillCont + 1, sent := some (sentCell .fill Config.fillTag (s.feed f).fillCont []) } : Feed) = y
  have frame := (s.setFeed f y).count_eq (.feed f .fill) 1
  have counted := (s.setFeed f y).count_counter (.feed f .fill) 1
  generalize State.count _ _ _ = t at frame counted ⊢
  refine ⟨?_, counted, fun g other => ?_, ?_, ?_⟩
  · rw [frame]; exact State.setFeed_feed ..
  · rw [frame]; exact State.setFeed_feed_other _ _ (Ne.symm other)
  · rw [frame]; rfl
  · rw [frame]; rfl

theorem State.sendSelected_none {s : State} {f : FeedId} (none : s.select f = none) (tick : BitVec 32) :
    s.sendSelected f tick = s.sendFill f := by
  unfold State.sendSelected
  rw [none]

/-- A RUNNING feed without a live entry departs with a fill cell (R93). -/
theorem State.depart_empty {s : State} {f : FeedId} (empty : s.liveEntries f = []) : s.depart f = (s.sendFill f).walkLanes := by
  have none : s.select f = none := by rw [State.select, empty]; rfl
  unfold State.depart
  rw [empty]
  exact congrArg State.walkLanes (State.sendSelected_none none _)

/-- Settles O7. -/
theorem slotBoundarySendsCellsAndFill : Obligations.SlotBoundarySendsCellsAndFill := by
  unfold Obligations.SlotBoundarySendsCellsAndFill
  refine ⟨fun order s reached => ?_, fun s f tick none => ?_, fun s f waits owed running mode empty => ?_⟩
  · have opened : s.meetSlot = s.openSlot := if_pos reached
    obtain ⟨sent, cells⟩ := (s.openSlot_carried.slotParts order).closeSlot
    refine ⟨(s.openSlot.slotParts order).closeSlot .whole, ?_, sent, cells⟩
    rw [← opened]
    rfl
  · dsimp only
    rw [State.sendSelected_none none, ← sentCell_fill]
    exact s.sendFill_facts f
  · obtain ⟨d, slots, departs⟩ := State.slotPartFeed_running owed running mode
    refine ⟨_, exec_slotPart waits (.feed f), ?_⟩
    dsimp only
    rw [State.slotPart, departs, State.depart_empty (s := { s with due := d }) empty, ← sentCell_fill]
    obtain ⟨feed, counter, -⟩ := State.sendFill_facts { s with due := d } f
    have sends := sends_sendFill { s with due := d } f
    generalize State.sendFill _ f = t at feed counter sends ⊢
    have walked := moves_walkLanes t
    refine ⟨?_, ?_, ?_, ?_⟩
    · rw [walked.feed, feed]; rfl
    · rw [walked.feed, feed]; rfl
    · rw [walked.aside.slotFeeds, sends.slotFeeds, slots]; simp [hasFeed_dropFeed]
    · rw [(uncounted_walkLanes t).counter, counter]; rfl

end Sys2Proof.Machine
end

section
/-! PROOFS. Notice (R115): the marks of the target feeds and their waiting subscriptions. -/

namespace Sys2Proof.Machine

/-- A subscribe is answered NO-ROOM exactly where the table has no room (R42, R43). -/
theorem State.subscribe_eq (s : State) (f : FeedId) (src : Source) (w : Bool) :
    s.subscribe f src w = if s.store.hasRoom src then some (s.subscribeFound f src w) else none := by
  unfold State.subscribeFound State.subscribe Store.hasRoom
  cases s.store.openAt src with
  | some k => rfl
  | none => cases s.store.unusedAt <;> rfl

theorem StreamRecord.joined_keeps_subs {r : StreamRecord} {f : FeedId} (subs : hasFeed r.subs f = true) (g : FeedId) (w : Bool) :
    hasFeed (r.joined g w).subs f = true := by
  unfold StreamRecord.joined
  split
  · split <;> exact subs
  · simp [hasFeed_addFeed, subs]

/-- A subscribe to a stream leaves its other subscribers (R42). -/
theorem State.subscribeFound_keeps_subscribed {s : State} (store : s.store.wf = true) {f : FeedId} {src : Source}
    (subs : s.store.subscribed f src = true) (g : FeedId) (w : Bool) : (s.subscribeFound g src w).store.subscribed f src = true := by
  unfold Store.subscribed at subs
  cases here : s.store.openAt src with
  | none => rw [here] at subs; nomatch subs
  | some k =>
    rw [here] at subs
    dsimp only at subs
    obtain ⟨j, found, eq⟩ | ⟨j, unopened, -⟩ | ⟨unopened, -⟩ := s.subscribeFound_cases g src w
    · obtain rfl : k = j := Option.some.inj (here.symm.trans found)
      rw [eq]
      have same := s.store.setStream_stream store k ((s.store.stream k).joined g w)
      have kept := StreamRecord.joined_keeps_subs subs g w
      obtain ⟨low, -, names⟩ := Store.openAt_some found
      have first : (s.store.setStream k ((s.store.stream k).joined g w)).openAt src = some k := by
        refine Store.openAt_of_first low ?_ ?_ fun j before => ?_
        · rw [same]; exact StreamRecord.isOpen_of_hasFeed kept
        · rw [same, StreamRecord.joined_src, names]
        · rw [Store.setStream_stream_other _ _ (Nat.ne_of_gt before)]
          exact Store.openAt_first found j before
      dsimp only
      rw [Store.subscribed, first]
      dsimp only
      rw [same]
      exact kept
    · rw [unopened] at here; nomatch here
    · rw [unopened] at here; nomatch here

theorem State.subscribeFound_store_wf {s : State} (store : s.store.wf = true) (f : FeedId) (src : Source) (w : Bool) :
    (s.subscribeFound f src w).store.wf = true := by
  obtain ⟨k, -, eq⟩ | ⟨k, -, -, eq⟩ | ⟨-, -, eq⟩ := s.subscribeFound_cases f src w <;> rw [eq]
  · exact Store.setStream_wf store ..
  · exact Store.setStream_wf store ..
  · exact store

/-- The mark that notice gives a target feed (R115). -/
def State.noticeMark (s : State) (src : Source) (f : FeedId) : Mark :=
  if s.feedNeeds f then if s.store.hasRoom src then .held else .noRoom else .stopped

/-- Notice of the target feeds changes the stream table alone; where the feed order finds room once, it finds it always (R115). -/
theorem State.noticeFeeds_facts (src : Source) (l : List FeedId) (s : State) (store : s.store.wf = true) :
    (s.noticeFeeds src l).1 = { s with store := (s.noticeFeeds src l).1.store } ∧
      (s.noticeFeeds src l).2 = l.map (fun f => (f, s.noticeMark src f)) ∧
      (∀ f, s.store.subscribed f src = true → (s.noticeFeeds src l).1.store.subscribed f src = true) ∧
      ∀ f, f ∈ l → s.feedNeeds f = true → s.store.hasRoom src = true → (s.noticeFeeds src l).1.store.subscribed f src = true := by
  induction l generalizing s with
  | nil => exact ⟨rfl, rfl, fun _ h => h, fun _ h => by nomatch h⟩
  | cons f l ih =>
    obtain ⟨frame, -⟩ := s.subscribeFound_eq f src true
    have keeps : ∀ g, s.store.subscribed g src = true → (s.subscribeFound f src true).store.subscribed g src = true := fun g subs =>
      State.subscribeFound_keeps_subscribed store subs f true
    have mark : (s.noticeFeed src f).2 = s.noticeMark src f := by
      unfold State.noticeFeed State.noticeMark
      rw [s.subscribe_eq f src true]
      cases s.feedNeeds f <;> cases s.store.hasRoom src <;> rfl
    have step : ((s.noticeFeed src f).1 = s ∧ (s.feedNeeds f = false ∨ s.store.hasRoom src = false)) ∨
        ((s.noticeFeed src f).1 = s.subscribeFound f src true ∧ s.store.hasRoom src = true) := by
      unfold State.noticeFeed
      rw [s.subscribe_eq f src true]
      cases s.feedNeeds f <;> cases s.store.hasRoom src <;> simp
    have unfolded : s.noticeFeeds src (f :: l) =
        (((s.noticeFeed src f).1.noticeFeeds src l).1, (f, (s.noticeFeed src f).2) :: ((s.noticeFeed src f).1.noticeFeeds src l).2) := rfl
    rw [unfolded, mark]
    obtain ⟨same, why⟩ | ⟨taken, room⟩ := step
    · rw [same]
      obtain ⟨rest, marks, kept, held⟩ := ih s store
      refine ⟨rest, congrArg _ marks, kept, fun g mem needs room => ?_⟩
      obtain rfl | later := List.mem_cons.mp mem
      · simp [needs, room] at why
      · exact held g later needs room
    · rw [taken]
      have subscribed := State.subscribeFound_subscribed store room f true
      have whole := State.subscribeFound_store_wf store f src true
      obtain ⟨rest, marks, kept, held⟩ := ih (s.subscribeFound f src true) whole
      have stillRoom := Store.hasRoom_of_subscribed subscribed
      have needsSame : ∀ g, (s.subscribeFound f src true).feedNeeds g = s.feedNeeds g := fun g => by
        rw [frame]; rfl
      have markSame : (s.subscribeFound f src true).noticeMark src = s.noticeMark src := funext fun g => by
        rw [State.noticeMark, State.noticeMark, stillRoom, room, needsSame]
      refine ⟨?_, ?_, fun g subs => kept g (keeps g subs), fun g mem needs _ => ?_⟩
      · rw [rest, frame]
      · rw [marks, markSame]; rfl
      · obtain rfl | later := List.mem_cons.mp mem
        · exact kept g subscribed
        · exact held g later (by rw [needsSame]; exact needs) stillRoom

/-- Notice given to a record (R115). -/
theorem State.giveNotice_facts {s : State} {r : Nat} {y : SpliceRecord} (whole : s.wf = true) (record : s.record r = y) (l : LaneId) :
    let t := s.giveNotice l r
    t.record r =
        { y with
          status := .noticed
          marks := if y.action = .switch then (feedList y.feeds).map (fun f => (f, s.noticeMark y.newSrc f)) else y.marks } ∧
      (∀ j, j ≠ r → t.record j = s.record j) ∧ t.ssu.lanes = s.ssu.lanes ∧
      t.mlt = (s.handReport (.spliceNotice l r y.dueCycle)).mlt ∧ t.maps = s.maps ∧ t.feeds = s.feeds ∧
      (y.action ≠ .switch → t.store = s.store) ∧
      (y.action = .switch → ∀ f, f ∈ feedList y.feeds → s.feedNeeds f = true → s.store.hasRoom y.newSrc = true →
        t.store.subscribed f y.newSrc = true) := by
  obtain ⟨store, -, records⟩ := s.wf_iff.mp whole
  have sorted := Table.sorted_of_wf records
  have written := State.setRecord_record s sorted r
  have others : ∀ z j, j ≠ r → (s.setRecord r z).record j = s.record j := fun z j other =>
    State.setRecord_record_other s z (Ne.symm other)
  have wf := (moves_setRecord s r { y with status := .noticed }).wf whole
  have before := others { y with status := .noticed }
  have reported := (s.setRecord r { y with status := .noticed }).handReport_offered (.spliceNotice l r y.dueCycle)
  have handed : (s.handReport (.spliceNotice l r y.dueCycle)).mlt =
      ((s.setRecord r { y with status := .noticed }).handReport (.spliceNotice l r y.dueCycle)).mlt := by
    rw [reported, s.handReport_offered]
    rfl
  unfold State.giveNotice
  dsimp only
  rw [record, handed]
  have frame := (s.setRecord r { y with status := .noticed }).handReport_eq (.spliceNotice l r y.dueCycle)
  generalize (s.setRecord r { y with status := .noticed }).handReport (.spliceNotice l r y.dueCycle) = a at frame ⊢
  split
  · next switch =>
    have marked : a.noticeMark y.newSrc = s.noticeMark y.newSrc := by rw [frame]; rfl
    have needs : a.feedNeeds = s.feedNeeds := by rw [frame]; rfl
    have same : a.store = s.store := by rw [frame]; rfl
    obtain ⟨noticed, marks, -, held⟩ := State.noticeFeeds_facts y.newSrc (feedList y.feeds) a (by rw [same]; exact store)
    rw [marked] at marks
    rw [needs, same] at held
    rw [marks]
    generalize (a.noticeFeeds y.newSrc (feedList y.feeds)).1 = n at noticed held ⊢
    have ssu : n.ssu = (s.setRecord r { y with status := .noticed }).ssu := by rw [noticed, frame]
    refine ⟨?_, fun j h => ?_, ?_, ?_, ?_, ?_, fun h => absurd switch h, fun _ => held⟩
    · obtain ⟨-, -, records'⟩ := (State.wf_iff _).mp wf
      exact State.setRecord_record n (by rw [ssu]; exact Table.sorted_of_wf records') r _
    · rw [State.setRecord_record_other n _ (Ne.symm h), State.record, ssu]
      exact before j h
    · exact (congrArg Ssu.lanes ssu).trans rfl
    · rw [State.setRecord_mlt, noticed]
    · rw [State.setRecord_maps, noticed, frame]; rfl
    · rw [State.setRecord_feeds, noticed, frame]; rfl
  · next other =>
    refine ⟨?_, fun j h => ?_, ?_, rfl, ?_, ?_, fun _ => ?_, fun h => absurd h other⟩
    · rw [frame]; exact written _
    · rw [frame]; exact before j h
    all_goals
      rw [frame]
      rfl

/-- A lane that reaches an action record within its notice gives notice of it and rests on it (R111, R114, R115). -/
theorem State.reach_notices {s : State} {l : LaneId} {r : Nat} {x : SpliceRecord} (record : s.record r = x) (action : x.carries = .action)
    (free : x.inUse = false) (due : 1 ≤ s.distance x.dueCycle) (near : s.distance x.dueCycle ≤ x.noticeLead)
    (ahead : s.distance x.dueCycle < 32768) :
    s.reach l r =
      (((s.setLane l { s.lane l with curRec := r }).setRecord r { x with status := .pending, outcomes := [], marks := [] }).giveNotice
        l r).restLane l .noticed := by
  refine State.reach_of_rests ?_
  have distance : (s.setLane l { s.lane l with curRec := r }).distance x.dueCycle = s.distance x.dueCycle := rfl
  simp only [State.reachRecord, State.setLane_record, record, action, if_neg (ne_true_of_eq_false free), State.evaluateRecord, distance]
  rw [if_neg (by omega), if_neg (by omega), if_pos near]

theorem SpliceRecord.markOf_map {x : SpliceRecord} {l : List FeedId} {g : FeedId → Mark} (marks : x.marks = l.map (fun f => (f, g f)))
    {f : FeedId} (mem : f ∈ l) : x.markOf f = some (g f) := by
  rw [SpliceRecord.markOf, marks]
  clear marks
  induction l with
  | nil => nomatch mem
  | cons k l ih =>
    by_cases same : k = f
    · subst same; simp
    · rw [List.map_cons, List.find?_cons_of_neg (by simpa using same)]
      exact ih ((List.mem_cons.mp mem).resolve_left (Ne.symm same))

/-- Settles O30: notice marks the target feeds in feed order. -/
theorem noticeMarksTargetFeeds : Obligations.NoticeMarksTargetFeeds := by
  unfold Obligations.NoticeMarksTargetFeeds
  intro s l r whole owed waiting here action fresh unarmed x d ahead near half
  have free : x.inUse = false := by simp [SpliceRecord.inUse, x, fresh, unarmed]
  have due : s.noticeDue l = true := by
    simp only [State.noticeDue, State.laneWaits, State.laneDistance, here, owed, waiting, action]
    rw [show s.distance (s.record r).dueCycle = d from rfl, show (s.record r).inUse = false from free, decide_eq_true ahead,
      decide_eq_true half, decide_eq_true (show d ≤ (s.record r).noticeLead from near)]
    rfl
  obtain ⟨y, hy⟩ : ∃ y : SpliceRecord, y = { x with status := .pending, outcomes := [], marks := [] } := ⟨_, rfl⟩
  obtain ⟨u, hu⟩ : ∃ u : State, u = { s with due := { s.due with lanes := s.due.lanes &&& ~~~ BitVec.twoPow 4 l.val } } := ⟨_, rfl⟩
  obtain ⟨v, hv⟩ : ∃ v : State, v = (u.setLane l { u.lane l with curRec := r }).setRecord r y := ⟨_, rfl⟩
  have given : exec (.notice l) s = .next ((v.giveNotice l r).restLane l .noticed) := by
    have part : s.lanePart l = u.reach l r := by
      rw [State.lanePart, if_pos owed, ← hu, State.evaluateLane]
      have lane : u.lane l = s.lane l := by rw [hu]; rfl
      simp only [lane, waiting, here]
    have reached : u.reach l r = (v.giveNotice l r).restLane l .noticed := by
      rw [hv, hy]
      exact State.reach_notices (x := x) (by rw [hu]; rfl) action free (by rw [hu]; exact ahead) (by rw [hu]; exact near)
        (by rw [hu]; exact half)
    rw [← reached, ← part]
    exact congrArg Host.Outcome.next (if_pos due)
  have wf : v.wf = true := by
    rw [hv]
    refine (moves_setRecord _ _ _).wf ((moves_setLane _ _ _).wf ?_)
    rw [hu]
    exact whole
  obtain ⟨-, -, records⟩ := s.wf_iff.mp whole
  have written : v.record r = y := by
    rw [hv, hu]
    exact State.setRecord_record _ (Table.sorted_of_wf records) r y
  obtain ⟨record, others, lanes, mlt, maps, feeds, store, held⟩ := State.giveNotice_facts wf written l
  have needs : v.feedNeeds = s.feedNeeds := by rw [hv, hu]; rfl
  have sameStore : v.store = s.store := by rw [hv, hu]; rfl
  have mark : v.noticeMark = s.noticeMark := by rw [hv, hu]; rfl
  have handed : (v.handReport (.spliceNotice l r y.dueCycle)).mlt = (s.handReport (.spliceNotice l r x.dueCycle)).mlt := by
    rw [State.handReport_offered, State.handReport_offered, hv, hu, hy]
    rfl
  have switch : y.action = x.action ∧ y.newSrc = x.newSrc ∧ y.feeds = x.feeds := by rw [hy]; exact ⟨rfl, rfl, rfl⟩
  obtain ⟨sameAction, sameSrc, sameFeeds⟩ := switch
  rw [mark, sameAction, sameSrc, sameFeeds] at record
  rw [sameAction, sameStore] at store
  rw [needs, sameStore, sameAction, sameSrc, sameFeeds] at held
  refine ⟨_, given, ?_⟩
  generalize v.giveNotice l r = t at record others lanes mlt maps feeds store held ⊢
  have lane : ∀ k, t.lane k = v.lane k := fun k => by rw [State.lane, lanes]; rfl
  simp only [State.restLane, State.setLane_record, State.setLane_mlt, State.setLane_maps, State.setLane_feeds, State.setLane_store]
  refine ⟨?_, ?_, fun j other => ?_, fun k other => ?_, mlt.trans handed, ?_, ?_, fun other => ⟨?_, store other⟩, fun is => ⟨?_, fun f hf => ?_⟩⟩
  · rw [record, hy]
  · rw [State.setLane_lane, lane, hv, hu]
    simp [here]
  · rw [others j other, hv, State.setRecord_record_other _ _ (Ne.symm other), hu]
    rfl
  · rw [State.setLane_lane_other _ _ (Ne.symm other), lane, hv, State.setRecord_lane, State.setLane_lane_other _ _ (Ne.symm other), hu]
    rfl
  · rw [maps, hv, hu]; rfl
  · rw [feeds, hv, hu]; rfl
  · rw [record, hy]
    simp [other]
  · rw [record]
    simp [is, Function.comp_def]
  · have mem : f ∈ feedList x.feeds := mem_feedList.mpr hf
    have marked : (t.record r).markOf f = some (s.noticeMark x.newSrc f) :=
      SpliceRecord.markOf_map (l := feedList x.feeds) (by rw [record]; simp [is]) mem
    rw [marked]
    refine ⟨fun none => ?_, fun needs room => ⟨?_, held is f mem needs room⟩, fun needs full => ?_⟩
    · simp [State.noticeMark, none]
    · simp [State.noticeMark, needs, room]
    · simp [State.noticeMark, needs, full]

end Sys2Proof.Machine
end

section
/-! PROOFS. Window expiry (R123 to R125): a splice ends and its owner is told. -/

namespace Sys2Proof.Machine

/-- The owner of a splice has heard of its end: a revert by its report, a lane by the outcome in its record, behind which other
splices still run. -/
structure State.Heard (s : State) (f : FeedId) (v : Live) (o : SpliceResult) (reverted : Mlt) (a : State) : Prop where
  frame : a = { s with ssu := a.ssu, mlt := a.mlt }
  wf : a.wf = true
  record : ∀ l r, v.owner = some (.lane l r) →
    a.record r = { s.record r with outcomes := (s.record r).outcomes.map (fun i => if i = (f, SpliceResult.started) then (f, o) else i) }
  revert : v.owner = some .revert → a.mlt = reverted

/-- The owner is a revert, or a lane whose record has another splice running. -/
def State.ownerStays (s : State) (f : FeedId) (v : Live) : Prop :=
  v.owner = some .revert ∨
    ∃ l r g, v.owner = some (.lane l r) ∧ (s.record r).status = .armed ∧ g ≠ f ∧ (g, SpliceResult.started) ∈ (s.record r).outcomes

theorem State.heard_endSplice {s : State} (whole : s.wf = true) {f : FeedId} {v : Live} (owner : s.ownerStays f v) (e : Nat)
    (o : SpliceResult) (rev : RevertResult) :
    s.Heard f v o (s.handReport (.entryReverted f e (s.entry f e).outTag v.protSrc rev)).mlt (s.endSplice f e v o rev) := by
  have wf := (moves_endSplice s f e v o rev).wf whole
  obtain revert | ⟨l, r, g, lane, armed, other, mem⟩ := owner
  · rw [State.endSplice_revert revert] at wf ⊢
    refine ⟨?_, wf, fun l r lane => ?_, fun _ => rfl⟩
    · rw [State.handReport_offered]
    · rw [revert] at lane; nomatch lane
  · rw [State.endSplice_lane lane, State.enterOutcome_runs armed other mem] at wf ⊢
    obtain ⟨-, -, records⟩ := s.wf_iff.mp whole
    refine ⟨rfl, wf, fun l' r' lane' => ?_, fun revert => ?_⟩
    · obtain ⟨rfl, rfl⟩ : l = l' ∧ r = r' := by
        rw [lane] at lane'
        injection lane' with same
        injection same with lanes recs
        exact ⟨lanes, recs⟩
      rw [State.setRecord_record s (Table.sorted_of_wf records), finishItem, map_finished]
    · rw [lane] at revert; nomatch revert

/-- After its end the entry stands as written, whatever its streams are handed on. -/
theorem State.Heard.lands {s a b : State} {f : FeedId} {e : Nat} {v w : Live} {o : SpliceResult} {reverted : Mlt}
    (heard : s.Heard f v o reverted a) (idle : s.due.walks = []) (stored : Stored (a.setLive f e w) b) :
    b.walkLanes = b ∧ b.live f e = w ∧
      (∀ l r, v.owner = some (.lane l r) →
        b.record r =
          { s.record r with outcomes := (s.record r).outcomes.map (fun i => if i = (f, SpliceResult.started) then (f, o) else i) }) ∧
      (v.owner = some .revert → reverted.reports <+: b.mlt.reports ∧ ((∀ p, s.store.cong.get p = false) → b.mlt = reverted)) ∧
      b.feeds = s.feeds := by
  obtain ⟨frame, wf, record, revert⟩ := heard
  have store : a.store = s.store := by rw [frame]
  have walks : a.due = s.due := by rw [frame]
  have feeds : a.feeds = s.feeds := by rw [frame]
  refine ⟨State.walkLanes_idle ?_, ?_, fun l r lane => ?_, fun owner => ⟨?_, fun free => ?_⟩, ?_⟩
  · rw [stored.due]
    exact (congrArg Due.walks walks).trans idle
  · rw [stored.live]
    exact State.setLive_live a f (State.live_sorted wf f) e w
  · rw [← record l r lane, State.record, stored.ssu]
    rfl
  · rw [← revert owner]
    exact stored.reports
  · obtain ⟨mlt, -⟩ := stored.quiet fun p => (congrArg (fun st : Store => st.cong.get p) store).trans (free p)
    rw [← revert owner, mlt]
    rfl
  · exact stored.feeds.trans feeds

theorem State.record_of_ssu {s t : State} (ssu : t.ssu = s.ssu) : t.record = s.record := by
  funext r
  rw [State.record, ssu]
  rfl

theorem exec_windowExpiry {s : State} {f : FeedId} {e : Nat} (busy : (s.live f e).estate = .outWait ∨ (s.live f e).estate = .inWait)
    (last : (s.live f e).windowLeft = 0) : exec (.windowExpiry f e) s = .next (s.expireWindow f e).walkLanes := by
  refine congrArg Host.Outcome.next (if_pos ⟨?_, last⟩)
  obtain out | into := busy
  · simp [Live.busy, out]
  · simp [Live.busy, into]

section
variable {s : State} {f : FeedId} {e : Nat} {v : Live}

theorem State.forceExpiry_inWait (live : s.live f e = v) (state : v.estate = .inWait) :
    s.forceExpiry f e = (s.endSplice f e v .forced .forced).setLive f e v.landed := by
  unfold State.forceExpiry
  rw [live]
  dsimp only
  rw [state]

theorem State.forceExpiry_outWait {new : Source} (live : s.live f e = v) (state : v.estate = .outWait) (target : v.newSrc = some new) :
    s.forceExpiry f e =
      (((s.endSplice f e v .forced .forced).setLive f e { v.landed with curSrc := some new }).endNeedOf f v.curSrc true).takeUp f new
        false := by
  unfold State.forceExpiry
  rw [live]
  dsimp only
  rw [state, target]

theorem State.cancelExpiry_outWait (live : s.live f e = v) (state : v.estate = .outWait) :
    s.cancelExpiry f e =
      ((s.endSplice f e v .cancelled .absent).setLive f e (s.returned f e v)).endNeedOf f v.newSrc false := by
  unfold State.cancelExpiry
  rw [live]
  dsimp only
  rw [state]

theorem State.cancelExpiry_inWait {prev : Source} (live : s.live f e = v) (state : v.estate = .inWait) (before : v.prevSrc = some prev)
    (room : s.store.hasRoom prev = true) :
    s.cancelExpiry f e =
      (((s.subscribeFound f prev false).endSplice f e v .cancelled .absent).setLive f e
        { s.returned f e v with curSrc := some prev, discPending := true }).endNeedOf f v.newSrc true := by
  unfold State.cancelExpiry
  rw [live]
  dsimp only
  rw [state]
  dsimp only
  rw [before]
  dsimp only
  rw [s.subscribe_eq f prev false, if_pos room]

/-- A CANCEL in OUT-WAIT leaves the entry where it was before the splice (R125). -/
theorem State.cancels_outWait (whole : s.wf = true) (settled : s.settled) (live : s.live f e = v) (last : v.windowLeft = 0)
    (owner : s.ownerStays f v) (cancel : v.onMiss = some .cancel) (state : v.estate = .outWait) :
    ∃ t, exec (.windowExpiry f e) s = .next t ∧ t.live f e = s.returned f e v ∧
      (∀ l r, v.owner = some (.lane l r) →
        t.record r =
          { s.record r with
            outcomes := (s.record r).outcomes.map (fun i => if i = (f, SpliceResult.started) then (f, .cancelled) else i) }) ∧
      t.feeds = s.feeds := by
  obtain ⟨-, idle⟩ := settled
  have ended := exec_windowExpiry (s := s) (f := f) (e := e) (by rw [live]; exact .inl state) (by rw [live]; exact last)
  rw [State.expireWindow, live, cancel] at ended
  dsimp only at ended
  rw [State.cancelExpiry_outWait live state] at ended
  obtain ⟨rests, entry, record, -, feeds⟩ := (State.heard_endSplice whole owner e .cancelled .absent).lands
    (w := s.returned f e v) idle (stored_endNeedOf _ f v.newSrc false)
  rw [rests] at ended
  exact ⟨_, ended, entry, record, feeds⟩

end

/-- Settles O32: FORCE and CANCEL, and a window that has not come to 0. -/
theorem windowExpiryEndsSplice : Obligations.WindowExpiryEndsSplice := by
  unfold Obligations.WindowExpiryEndsSplice
  refine ⟨fun s f e whole settled last owner => ?_, fun s f e other => ?_⟩
  · have idle := settled.2
    generalize live : s.live f e = v at last owner
    have ends {o : SpliceResult} {rev : RevertResult} := State.heard_endSplice whole owner e o rev
    dsimp only
    refine ⟨fun force state => ?_, fun new force state target => ?_, fun l r cancel state lane none => ?_,
      fun l r prev cancel state lane before none room => ?_, fun l r prot cancel state lane guarded => ?_⟩
    · have ended := exec_windowExpiry (s := s) (f := f) (e := e) (by rw [live]; exact .inr state) (by rw [live]; exact last)
      rw [State.expireWindow, live, force] at ended
      dsimp only at ended
      rw [State.forceExpiry_inWait live state] at ended
      have heard := ends (o := .forced) (rev := .forced)
      obtain ⟨rests, entry, record, reports, feeds⟩ := heard.lands (w := v.landed) idle (.refl _)
      rw [rests] at ended
      refine ⟨_, ended, entry, ⟨record, fun revert => ?_⟩, ?_, feeds⟩
      · obtain ⟨pre, -⟩ := reports revert
        exact ⟨pre, fun _ => heard.revert revert⟩
      · exact (congrArg State.store heard.frame).trans rfl
    · have ended := exec_windowExpiry (s := s) (f := f) (e := e) (by rw [live]; exact .inl state) (by rw [live]; exact last)
      rw [State.expireWindow, live, force] at ended
      dsimp only at ended
      rw [State.forceExpiry_outWait live state target] at ended
      obtain ⟨rests, entry, record, reports, feeds⟩ := (ends (o := .forced) (rev := .forced)).lands
        (w := { v.landed with curSrc := some new }) idle ((stored_endNeedOf _ f v.curSrc true).trans (stored_takeUp _ f new false))
      rw [rests] at ended
      refine ⟨_, ended, entry, ⟨record, fun revert => ?_⟩, feeds⟩
      obtain ⟨pre, quiet⟩ := reports revert
      exact ⟨pre, fun free => quiet (free.resolve_left (by rw [state]; nofun))⟩
    · have back : s.returned f e v = { v.clearSplice with estate := .onAir } := by rw [State.returned, none]
      obtain ⟨t, ended, entry, record, feeds⟩ := State.cancels_outWait whole settled live last owner cancel state
      rw [back] at entry
      exact ⟨t, ended, entry, ⟨record, fun revert => absurd (lane.symm.trans revert) nofun⟩, feeds⟩
    · have ended := exec_windowExpiry (s := s) (f := f) (e := e) (by rw [live]; exact .inr state) (by rw [live]; exact last)
      rw [State.expireWindow, live, cancel] at ended
      dsimp only at ended
      rw [State.cancelExpiry_inWait live state before room] at ended
      obtain ⟨frame, -⟩ := s.subscribeFound_eq f prev false
      have wf := (moves_subscribeFound s f prev false).wf whole
      have back : s.returned f e v = { v.clearSplice with estate := .onAir } := by rw [State.returned, none]
      rw [back] at ended
      generalize s.subscribeFound f prev false = u at frame wf ended
      have ssu : u.ssu = s.ssu := by rw [frame]
      have stays : u.ownerStays f v := by rw [State.ownerStays, State.record_of_ssu ssu]; exact owner
      obtain ⟨rests, entry, record, -, feeds⟩ := (State.heard_endSplice wf stays e .cancelled .absent).lands
        (w := { v.clearSplice with estate := .onAir, curSrc := some prev, discPending := true }) (by rw [frame]; exact idle)
        (stored_endNeedOf _ f v.newSrc true)
      rw [rests] at ended
      rw [State.record_of_ssu ssu] at record
      refine ⟨_, ended, entry, ⟨record, fun revert => absurd (lane.symm.trans revert) nofun⟩, feeds.trans ?_⟩
      rw [frame]
    · have back : s.returned f e v = { v.clearSplice with estate := .fallback, revertLeft := s.revertCount f e prot } := by
        rw [State.returned, guarded]
      obtain ⟨t, ended, entry, record, -⟩ := State.cancels_outWait whole settled live last owner cancel state
      rw [back, State.revertCount] at entry
      refine ⟨t, ended, ⟨record, fun revert => absurd (lane.symm.trans revert) nofun⟩, entry.trans ?_⟩
      simp only [State.portLive, decide_eq_true_eq]
      rfl
  · refine congrArg Host.Outcome.next (if_neg ?_)
    obtain waits | still := other
    · exact fun h => waits h.2
    · simp [Live.busy, still]

end Sys2Proof.Machine
end

section
/-! SUPPORT. Room in the stream table (R43), while a feed leaves another stream. -/

namespace Sys2Proof.Machine

/-- There is room for a stream that is OPEN, or beside a record that is not (R43). -/
theorem Store.hasRoom_iff {st : Store} {src : Source} :
    st.hasRoom src = true ↔ st.openAt src ≠ none ∨ ∃ j, j < 128 ∧ (st.stream j).isOpen = false := by
  have unused : st.unusedAt.isSome = true ↔ ∃ j, j < 128 ∧ (st.stream j).isOpen = false := by
    constructor
    · intro some
      obtain ⟨j, found⟩ := Option.isSome_iff_exists.mp some
      exact ⟨j, Store.unusedAt_some found⟩
    · rintro ⟨j, low, closed⟩
      cases found : st.unusedAt with
      | some _ => rfl
      | none => rw [Store.unusedAt_none found low] at closed; nomatch closed
  rw [Store.hasRoom, Bool.or_eq_true, unused, Option.isSome_iff_ne_none]

section
variable {s : State} {f : FeedId} {src other : Source} {k : Nat}

/-- A feed's withdraw from a stream that it subscribes to, as the stream table sees it (R44). -/
theorem State.withdraw_store (store : s.store.wf = true) (found : s.store.openAt other = some k)
    (subs : hasFeed (s.store.stream k).subs f = true) :
    ∃ u : Store, s.store.SameStreams u ∧ u.wf = true ∧ (s.withdraw f other).store = u.leave k f := by
  obtain ⟨same, whole⟩ := State.releaseAll_sameStreams store f (s.store.holding f other)
  refine ⟨_, same, whole, ?_⟩
  unfold State.withdraw
  rw [found]
  dsimp only
  rw [if_pos subs]

/-- A withdraw leaves every other record OPEN or unused as it was. -/
theorem State.withdraw_isOpen_other (store : s.store.wf = true) (found : s.store.openAt other = some k)
    (subs : hasFeed (s.store.stream k).subs f = true) {j : Nat} (apart : j ≠ k) :
    ((s.withdraw f other).store.stream j).isOpen = (s.store.stream j).isOpen := by
  obtain ⟨u, same, -, left⟩ := State.withdraw_store store found subs
  obtain ⟨-, feeds, -⟩ := same j
  rw [left, Store.leave_stream_other (Ne.symm apart), StreamRecord.isOpen, feeds]
  rfl

/-- The last subscriber that withdraws closes the record (R45). -/
theorem State.withdraw_closes (store : s.store.wf = true) (found : s.store.openAt other = some k)
    (only : (s.store.stream k).subs = oneFeed f) : ((s.withdraw f other).store.stream k).isOpen = false := by
  obtain ⟨u, same, whole, left⟩ := State.withdraw_store (f := f) store found (by rw [only]; simp [hasFeed_oneFeed])
  obtain ⟨-, feeds, -⟩ := same k
  have last : dropFeed (u.stream k).subs f = 0 := (dropFeed_eq_zero_iff (by rw [feeds, only]; simp [hasFeed_oneFeed])).mpr (feeds.trans only)
  rw [left, Store.leave]
  rw [if_pos last, Store.setStream_stream whole]
  rfl

/-- A withdraw beside another subscriber keeps the record of the stream. -/
theorem State.withdraw_keeps (store : s.store.wf = true) (found : s.store.openAt other = some k)
    (subs : hasFeed (s.store.stream k).subs f = true) (shared : (s.store.stream k).subs ≠ oneFeed f) :
    (s.withdraw f other).store.openAt other = some k := by
  obtain ⟨u, same, whole, left⟩ := State.withdraw_store store found subs
  obtain ⟨names, feeds, -⟩ := same k
  have stays : dropFeed (u.stream k).subs f ≠ 0 := fun last =>
    shared (feeds.symm.trans ((dropFeed_eq_zero_iff (by rw [feeds]; exact subs)).mp last))
  obtain ⟨low, -, here⟩ := Store.openAt_some found
  rw [left]
  refine Store.openAt_of_first low ?_ ?_ fun j before => ?_
  · rw [Store.leave]
    rw [if_neg stays, Store.setStream_stream whole]
    simpa [StreamRecord.isOpen] using stays
  · rw [Store.leave]
    rw [if_neg stays, Store.setStream_stream whole]
    exact names.trans here
  · obtain ⟨names, feeds, -⟩ := same j
    rw [Store.leave_stream_other (Nat.ne_of_gt before), StreamRecord.isOpen, feeds, names]
    exact Store.openAt_first found j before

/-- The end of a need of another stream leaves the room that a stream has (R43, R116). -/
theorem State.endNeed_hasRoom (store : s.store.wf = true) (held : s.store.subscribed f other = true) (apart : other ≠ src)
    (room : s.store.hasRoom src = true) (reading : Bool) : (s.endNeed f other reading).store.hasRoom src = true := by
  rw [Store.hasRoom_iff] at room ⊢
  obtain used | ⟨j, low, unused⟩ := room
  · exact .inl (by rw [(State.endNeed_sameStream store apart f reading).openAt]; exact used)
  unfold Store.subscribed at held
  cases found : s.store.openAt other with
  | none => rw [found] at held; nomatch held
  | some k =>
    rw [found] at held
    dsimp only at held
    obtain ⟨lowk, usedk, -⟩ := Store.openAt_some found
    have aside : j ≠ k := fun same => by
      rw [same, usedk] at unused
      nomatch unused
    have still := (State.withdraw_isOpen_other store found held aside).trans unused
    have after := State.withdraw_store_wf store f
    unfold State.endNeed
    split
    · exact .inr ⟨j, low, unused⟩
    · split
      · split
        · have whole := after other
          obtain ⟨i, here, eq⟩ | ⟨i, closed, free, eq⟩ | ⟨-, -, eq⟩ := (s.withdraw f other).subscribeFound_cases f other true
          · obtain ⟨-, usedi, -⟩ := Store.openAt_some here
            have apart : i ≠ j := fun same => by
              rw [same, still] at usedi
              nomatch usedi
            exact .inr ⟨j, low, by rw [eq, Store.setStream_stream_other _ _ apart]; exact still⟩
          · have only : (s.store.stream k).subs = oneFeed f := by
              by_contra shared
              exact nomatch closed.symm.trans (State.withdraw_keeps store found held shared)
            have gone := State.withdraw_closes store found only
            by_cases taken : i = j
            · exact .inr ⟨k, lowk, by rw [eq, Store.setStream_stream_other _ _ (taken ▸ aside)]; exact gone⟩
            · exact .inr ⟨j, low, by rw [eq, Store.setStream_stream_other _ _ taken]; exact still⟩
          · exact .inr ⟨j, low, by rw [eq]; exact still⟩
        · exact .inr ⟨j, low, unused⟩
      · exact .inr ⟨j, low, still⟩

theorem State.streams_endNeed (streams : s.store.Streams) (f : FeedId) (src : Source) (reading : Bool) :
    (s.endNeed f src reading).store.Streams := by
  obtain ⟨left, -⟩ := State.withdraw_leaves streams f src
  unfold State.endNeed
  split
  · exact streams
  · split
    · split
      · exact State.streams_subscribeFound left f src true
      · exact streams
    · exact left

end

end Sys2Proof.Machine
end

section
/-! PROOFS. The failure of a port (R131 to R133). -/

namespace Sys2Proof.Machine

/-- An operation that leaves every entry of the active banks as it is, and every feed composer. -/
structure SameEntries (s t : State) : Prop where
  entry : ∀ g j, t.entry g j = s.entry g j
  feeds : t.feeds = s.feeds

namespace SameEntries

variable {s t u : State}

theorem refl (s : State) : SameEntries s s := ⟨fun _ _ => rfl, rfl⟩

theorem trans (h : SameEntries s t) (h' : SameEntries t u) : SameEntries s u :=
  ⟨fun g j => (h'.entry g j).trans (h.entry g j), h'.feeds.trans h.feeds⟩

theorem foldl {β : Type} (g : State → β → State) (hg : ∀ s b, SameEntries s (g s b)) (l : List β) (s : State) :
    SameEntries s (l.foldl g s) := by
  induction l generalizing s with
  | nil => exact refl s
  | cons b l ih => exact (hg s b).trans (ih _)

theorem setLive (s : State) (f : FeedId) (e : Nat) (v : Live) : SameEntries s (s.setLive f e v) :=
  ⟨fun g j => s.setLive_entry f g e j v, rfl⟩

theorem stored (h : Stored s t) : SameEntries s t := ⟨fun g j => by simp only [State.entry, h.map], h.feeds⟩

theorem handReport (s : State) (r : Report) : SameEntries s (s.handReport r) := by
  rw [State.handReport_offered]
  exact ⟨fun _ _ => rfl, rfl⟩

theorem endSplice (s : State) (f : FeedId) (e : Nat) (v : Live) (o : SpliceResult) (rev : RevertResult) :
    SameEntries s (s.endSplice f e v o rev) := by
  rw [State.endSplice_eq]
  exact ⟨fun _ _ => rfl, rfl⟩

theorem takeFallback (s : State) (f : FeedId) (e : Nat) (lost : Source) : SameEntries s (s.takeFallback f e lost) := by
  unfold State.takeFallback
  split
  · exact refl s
  · exact (((setLive s f e _).trans (stored (stored_endNeed ..))).trans (stored (stored_subscribeFound ..))).trans (handReport ..)

theorem loseNewSource (s : State) (f : FeedId) (e : Nat) : SameEntries s (s.loseNewSource f e) := by
  unfold State.loseNewSource
  dsimp only
  split
  · exact refl s
  · have ended := (endSplice s f e (s.live f e) .absent .absent).trans (setLive _ f e (s.live f e).clearSplice)
    split
    · exact ended.trans (takeFallback ..)
    · exact (ended.trans (setLive ..)).trans (handReport ..)

theorem outPoint (s : State) (f : FeedId) (e : Nat) : SameEntries s (s.outPoint f e) := by
  have taken : SameEntries s (s.takeOutPoint f e) := by
    unfold State.takeOutPoint
    dsimp only
    split
    · exact refl s
    · exact ((setLive s f e _).trans (stored (stored_endNeedOf ..))).trans (stored (stored_takeUp ..))
  unfold State.outPoint
  dsimp only
  split
  · exact refl s
  · split
    · exact taken
    · exact taken.trans (loseNewSource ..)

theorem failFallback (s : State) (f : FeedId) (e : Nat) (p : PortId) : SameEntries s (s.failFallback f e p) := by
  have cleared : SameEntries s (if (s.live f e).protSrc.any (fun x => x.port = p) then
      s.setLive f e { s.live f e with revertLeft := none } else s) := by
    split
    · exact setLive ..
    · exact refl s
  unfold State.failFallback
  dsimp only
  split
  · split
    · exact cleared.trans (handReport ..)
    · exact cleared
  · exact cleared

theorem failOutWait (s : State) (f : FeedId) (e : Nat) (p : PortId) : SameEntries s (s.failOutWait f e p) := by
  unfold State.failOutWait
  dsimp only
  split
  · exact outPoint s f e
  · split
    · exact ((setLive s f e _).trans (stored (stored_endNeedOf ..))).trans (handReport ..)
    · exact refl s

theorem failOnAir (s : State) (f : FeedId) (e : Nat) (lost : Source) : SameEntries s (s.failOnAir f e lost) := by
  unfold State.failOnAir
  split
  · exact takeFallback s f e lost
  · exact handReport ..

/-- The failure of a port leaves the active banks as they are (R131). -/
theorem failEntry (p : PortId) (f : FeedId) (s : State) (e : Nat) : SameEntries s (State.failEntry p f s e) := by
  unfold State.failEntry
  dsimp only
  split
  · split
    · split
      · exact failOnAir ..
      · exact refl s
    · exact refl s
  · exact failFallback s f e p
  · exact failOutWait s f e p
  · split
    · exact loseNewSource s f e
    · exact refl s
  · exact refl s

theorem liveEntries (h : SameEntries s t) (f : FeedId) : t.liveEntries f = s.liveEntries f := by
  unfold State.liveEntries usedEntries
  exact List.filter_congr fun e _ => congrArg MapEntry.used (h.entry f e)

theorem feedRunning (h : SameEntries s t) (f : FeedId) : t.feedRunning f = s.feedRunning f := by
  rw [State.feedRunning, State.feed, h.feeds]
  rfl

end SameEntries

/-- A pass over the live entries of the RUNNING feeds is one list, read off the start, where the pass keeps the active banks (R131). -/
theorem State.overRunning_eq (s : State) (g : FeedId → State → Nat → State) (keeps : ∀ f t e, SameEntries t (g f t e)) :
    s.overRunning g =
      (allFeeds.flatMap (fun f => if s.feedRunning f then (s.liveEntries f).map (fun e => (f, e)) else [])).foldl
        (fun t x => g x.1 t x.2) s := by
  have pass : ∀ (l : List FeedId) (t : State), SameEntries s t →
      l.foldl (fun t f => if t.feedRunning f then (t.liveEntries f).foldl (g f) t else t) t =
        (l.flatMap (fun f => if s.feedRunning f then (s.liveEntries f).map (fun e => (f, e)) else [])).foldl
          (fun t x => g x.1 t x.2) t := by
    intro l
    induction l with
    | nil => exact fun t _ => rfl
    | cons f l ih =>
      intro t same
      rw [List.foldl_cons, List.flatMap_cons, List.foldl_append, same.feedRunning f, same.liveEntries f]
      split
      · rw [List.foldl_map]
        exact ih _ (same.trans (SameEntries.foldl _ (keeps f) _ _))
      · exact ih t same
  exact pass allFeeds s (.refl s)

/-- What an entry is written with reads back where it is not VACANT. -/
theorem State.setLive_live_occupied (s : State) (f : FeedId) (e : Nat) {v : Live} (occupied : v ≠ Live.vacant) :
    (s.setLive f e v).live f e = v := by
  simp [State.setLive, State.live, Table.get, Table.set, occupied]

section
variable {s : State} {f : FeedId} {e : Nat} {v w : Live} {src : Source}

/-- A reading need that stays when the entry reads the stream no more is another entry's (R41). -/
theorem State.setLive_readingNeed (occupied : w ≠ Live.vacant) (gone : w.curSrc ≠ some src)
    (none : (s.setLive f e v).readingNeed f src = false) : (s.setLive f e w).readingNeed f src = false := by
  have needs : ∀ x, (s.setLive f e x).feedNeeds f = s.feedNeeds f := fun _ => rfl
  simp only [State.readingNeed, needs, State.setLive_liveEntries, Bool.and_eq_false_iff, List.any_eq_false,
    decide_eq_true_eq] at none ⊢
  refine none.imp_right fun none k mem => ?_
  by_cases same : e = k
  · subst same
    rw [State.setLive_live_occupied s f e occupied]
    exact gone
  · rw [State.setLive_live_other s f w same, ← State.setLive_live_other s f v same]
    exact none k mem

/-- A waiting need that stays when the entry waits for the stream no more is another entry's, or a record's (R41). -/
theorem State.setLive_waitingNeed (occupied : w ≠ Live.vacant) (gone : w.estate ≠ .outWait)
    (none : (s.setLive f e v).waitingNeed f src = false) : (s.setLive f e w).waitingNeed f src = false := by
  have needs : ∀ x, (s.setLive f e x).feedNeeds f = s.feedNeeds f := fun _ => rfl
  have records : ∀ x, (s.setLive f e x).recordWaits f src = s.recordWaits f src := fun _ => rfl
  simp only [State.waitingNeed, State.entryWaits, needs, records, State.setLive_liveEntries, Bool.and_eq_false_iff,
    Bool.or_eq_false_iff, List.any_eq_false, Bool.and_eq_true, decide_eq_true_eq] at none ⊢
  refine none.imp_right fun ⟨entries, records⟩ => ⟨fun k mem => ?_, records⟩
  by_cases same : e = k
  · subst same
    rw [State.setLive_live_occupied s f e occupied]
    exact fun h => gone h.1
  · rw [State.setLive_live_other s f w same, ← State.setLive_live_other s f v same]
    exact entries k mem

end

/-- The live fields of an entry that has taken its fallback (R133). -/
def Live.fallenBack (v : Live) (lost src : Source) : Live :=
  { v with protSrc := some lost, curSrc := some src, estate := .fallback, discPending := true, revertLeft := none }

theorem Live.fallenBack_occupied (v : Live) (lost src : Source) : v.fallenBack lost src ≠ Live.vacant := fun h =>
  EState.noConfusion (congrArg Live.estate h)

section
variable {s : State} {f : FeedId} {e : Nat} {v : Live} {lost src : Source}

/-- A usable fallback finds room when the feed has left the lost source (R132). -/
theorem State.fallback_room (store : s.store.wf = true) (held : s.store.subscribed f lost = true) (apart : lost ≠ src)
    (room : s.store.hasRoom src = true ∨ (s.setLive f e { v with curSrc := none }).closesRecord f lost = true) :
    ((s.setLive f e (v.fallenBack lost src)).endNeed f lost true).store.hasRoom src = true := by
  obtain room | closes := room
  · exact State.endNeed_hasRoom (s := s.setLive f e (v.fallenBack lost src)) store held apart room true
  · unfold State.closesRecord at closes
    split at closes
    · next k found =>
      rw [Bool.and_eq_true, Bool.and_eq_true, decide_eq_true_eq, Bool.not_eq_true', Bool.not_eq_true'] at closes
      obtain ⟨⟨only, reads⟩, waits⟩ := closes
      have unread := State.setLive_readingNeed (v.fallenBack_occupied lost src)
        (fun same => apart (Option.some.inj same).symm) reads
      have unwaited := State.setLive_waitingNeed (v.fallenBack_occupied lost src) (by nofun) waits
      obtain ⟨low, -⟩ := Store.openAt_some found
      have gone := State.withdraw_closes (s := s.setLive f e (v.fallenBack lost src)) store found only
      rw [State.endNeed, if_neg (ne_true_of_eq_false unread), if_neg (ne_true_of_eq_false unwaited)]
      exact Store.hasRoom_iff.mpr (.inr ⟨k, low, gone⟩)
    · nomatch closes

/-- A fallback taken (R133). -/
theorem State.takeFallback_facts (live : s.live f e = v) (fall : (s.entry f e).fallSrc = some src) :
    let t := s.takeFallback f e lost
    t.live f e = v.fallenBack lost src ∧ (∀ k, k ≠ e → t.live f k = s.live f k) ∧ (∀ g, g ≠ f → t.map g = s.map g) ∧
      (∃ u : State,
        t = u.handReport (.entryFallback f e (s.entry f e).outTag lost (s.port lost.port).state (.taken src)) ∧
        ((∀ o, s.store.cong.get o = false) → u.mlt = s.mlt)) ∧
      t.store = (((s.setLive f e (v.fallenBack lost src)).endNeed f lost true).subscribeFound f src false).store ∧
      t.ports = s.ports ∧ t.feeds = s.feeds ∧ t.ssu = s.ssu := by
  have taken : s.takeFallback f e lost =
      (((s.setLive f e (v.fallenBack lost src)).endNeed f lost true).subscribeFound f src false).handReport
        (.entryFallback f e (s.entry f e).outTag lost (s.port lost.port).state (.taken src)) := by
    unfold State.takeFallback
    rw [fall, live]
    rfl
  have written := s.setLive_live_occupied f e (v.fallenBack_occupied lost src)
  have stored := (stored_endNeed (s.setLive f e (v.fallenBack lost src)) f lost true).trans
    (stored_subscribeFound ((s.setLive f e (v.fallenBack lost src)).endNeed f lost true) f src false)
  have others : ∀ k, k ≠ e → (s.setLive f e (v.fallenBack lost src)).live f k = s.live f k := fun k other =>
    State.setLive_live_other s f _ (Ne.symm other)
  have maps : ∀ g, g ≠ f → (s.setLive f e (v.fallenBack lost src)).map g = s.map g := fun g other => s.setLive_map_other e _ other
  rw [taken]
  generalize (((s.setLive f e (v.fallenBack lost src)).endNeed f lost true).subscribeFound f src false) = u at stored ⊢
  dsimp only
  have frame := u.handReport_eq (.entryFallback f e (s.entry f e).outTag lost (s.port lost.port).state (.taken src))
  refine ⟨?_, fun k other => ?_, fun g other => ?_, ⟨u, rfl, fun free => ?_⟩, ?_, ?_, ?_, ?_⟩
  · rw [frame]; exact (stored.live f e).trans written
  · rw [frame]; exact (stored.live f k).trans (others k other)
  · rw [frame]; exact (stored.map g).trans (maps g other)
  · obtain ⟨mlt, -⟩ := stored.quiet free
    exact mlt
  · rw [frame]
  · rw [frame]; exact stored.ports
  · rw [frame]; exact stored.feeds
  · rw [frame]; exact stored.ssu

end

theorem State.failEntry_onAir {s : State} {p : PortId} {f : FeedId} {e : Nat} {lost : Source} (state : (s.live f e).estate = .onAir)
    (source : (s.live f e).curSrc = some lost) (port : lost.port = p) : State.failEntry p f s e = s.failOnAir f e lost := by
  unfold State.failEntry
  dsimp only
  rw [state, source]
  exact if_pos port

theorem State.failOnAir_blocked {s : State} {f : FeedId} {e : Nat} {lost : Source} {why : BlockReason}
    (blocked : s.fallbackBlock f e lost.port lost = some why) :
    s.failOnAir f e lost = s.handReport (.entryFallback f e (s.entry f e).outTag lost (s.port lost.port).state (.blocked why)) := by
  unfold State.failOnAir
  rw [blocked]
  rfl

/-- Settles O24: the order of a failure, and an ON-AIR entry with and without a usable fallback. -/
theorem fallbackAtPortFailure : Obligations.FallbackAtPortFailure := by
  unfold Obligations.FallbackAtPortFailure
  refine ⟨fun s p => ?_, fun s p f e lost state source port => ?_⟩
  · have pass := s.overRunning_eq (State.failEntry p) fun f t e => SameEntries.failEntry p f t e
    simp only [State.feedRunning, decide_eq_true_eq] at pass
    exact congrArg State.walkLanes pass
  · subst port
    have fails := State.failEntry_onAir state source rfl
    dsimp only
    rw [fails]
    have blocks {why : BlockReason} (blocked : s.fallbackBlock f e lost.port lost = some why) := State.failOnAir_blocked blocked
    refine ⟨fun none => blocks (by rw [State.fallbackBlock, none]), fun src fall => ⟨fun same => ?_, fun apart taken => ?_,
      fun apart free full => ?_, fun apart free room => ?_⟩⟩
    · exact blocks (by rw [State.fallbackBlock, fall]; exact if_pos same)
    · refine blocks ?_
      rw [State.fallbackBlock, fall]
      dsimp only
      rw [if_neg apart, if_pos taken]
    · refine blocks ?_
      rw [State.fallbackBlock, fall]
      dsimp only
      rw [if_neg apart, if_neg (ne_true_of_eq_false free), if_neg full]
    · have usable : s.fallbackBlock f e lost.port lost = none := by
        rw [State.fallbackBlock, fall]
        dsimp only
        rw [if_neg apart, if_neg (ne_true_of_eq_false free), if_pos room]
      have falls : s.failOnAir f e lost = s.takeFallback f e lost := by rw [State.failOnAir, usable]
      rw [falls]
      obtain ⟨live, others, maps, report, store, ports, feeds, ssu⟩ := State.takeFallback_facts (lost := lost) rfl fall
      refine ⟨live, others, maps, fun whole sound held => ?_, report, ports, feeds, ssu⟩
      obtain ⟨wf, -, -⟩ := s.wf_iff.mp whole
      have different : lost ≠ src := fun same => apart (congrArg Source.port same).symm
      have hasRoom := State.fallback_room (e := e) (v := s.live f e) wf held different room
      rw [store]
      exact State.subscribeFound_reads
        (State.streams_endNeed (s := s.setLive f e ((s.live f e).fallenBack lost src)) ⟨wf, sound⟩ f lost true) hasRoom f

end Sys2Proof.Machine
end

section
/-! PROOFS. The arming of a record with one target feed (R117 to R120). -/

namespace Sys2Proof.Machine

theorem FeedMap.setBank_frame (m : FeedMap) (k : Bank) (t : List (Nat × MapEntry)) :
    (m.setBank k t).activeBank = m.activeBank ∧ (m.setBank k t).live = m.live := by
  rw [FeedMap.setBank_eq]
  exact ⟨rfl, rfl⟩

/-- A SHARE sets the share of the live entry, and no live field (R119). -/
theorem State.setShare_facts {s : State} (whole : s.wf = true) (f : FeedId) (e : Nat) (tag : Tag) (share : Nat) :
    ∃ m : FeedMap, s.setShare f e tag share = s.setMap f m ∧ m.live = (s.map f).live ∧ (bankEntry m.active e).share = share := by
  obtain ⟨-, maps, -⟩ := s.wf_iff.mp whole
  obtain ⟨bankA, bankB, -⟩ := (s.map f).wf_iff.mp (maps f)
  have sorted : Table.sorted (s.map f).active = true := by
    unfold FeedMap.active FeedMap.bank
    split
    · exact Table.sorted_of_wf bankA
    · exact Table.sorted_of_wf bankB
  unfold State.setShare
  dsimp only
  generalize s.map f = m at sorted ⊢
  obtain ⟨a, ha⟩ : ∃ a : FeedMap, a = m.setBank m.activeBank (setBankEntry m.active e { bankEntry m.active e with share := share }) :=
    ⟨_, rfl⟩
  obtain ⟨active, live⟩ : a.activeBank = m.activeBank ∧ a.live = m.live := ha ▸ m.setBank_frame ..
  have written : (bankEntry a.active e).share = share := by
    rw [FeedMap.active, active, ha, FeedMap.bank_setBank, setBankEntry, bankEntry, Table.get_set_same sorted]
  have beside : ∀ l, (a.setBank m.activeBank.other l).live = m.live ∧
      (bankEntry (a.setBank m.activeBank.other l).active e).share = share := fun l => by
    obtain ⟨active', live'⟩ := a.setBank_frame m.activeBank.other l
    refine ⟨live'.trans live, ?_⟩
    rw [FeedMap.active, active', active, FeedMap.bank_setBank_other, ← active]
    exact written
  rw [← ha]
  split
  · split
    · exact ⟨a, rfl, live, written⟩
    · obtain ⟨live, written⟩ := beside _
      exact ⟨_, rfl, live, written⟩
  · exact ⟨a, rfl, live, written⟩

/-- The live fields of an entry whose splice a lane begins (R118). -/
def Live.begun (v : Live) (l : LaneId) (r : Nat) (x : SpliceRecord) (src : Source) : Live :=
  { v with
    prevSrc := v.curSrc, newSrc := some src, windowLeft := x.window, onMiss := some x.onMiss, owner := some (.lane l r),
    estate := .outWait, revertLeft := none }

theorem State.beginSplice_stored (s : State) (l : LaneId) (r : Nat) (x : SpliceRecord) (f : FeedId) (e : Nat) :
    ∃ st : Store, s.beginSplice l r x f e =
      { s.setLive f e ((s.live f e).begun l r x (s.armSource x f e)) with store := st } := by
  unfold State.beginSplice
  dsimp only
  split
  · exact ⟨s.store, rfl⟩
  · obtain ⟨frame, -⟩ := State.subscribeFound_eq (s.setLive f e ((s.live f e).begun l r x (s.armSource x f e))) f (s.armSource x f e) true
    exact ⟨_, frame⟩

/-- The effect of an outcome at arming on its entry (R117 to R119). -/
theorem State.armEffect_facts {s : State} (whole : s.wf = true) (l : LaneId) (r : Nat) (x : SpliceRecord) (f : FeedId) (o : SpliceResult) :
    let t := s.armEffect l r x f o
    t = { s with store := t.store, maps := t.maps } ∧
      (o = .started → ∀ e, s.entryOfTag f x.outTag = some e →
        t.live f e = (s.live f e).begun l r x (s.armSource x f e)) ∧
      (o ≠ .started → ∀ e, t.live f e = s.live f e) ∧
      ∀ e, s.entryOfTag f x.outTag = some e → (t.entry f e).share = if o = .done then x.newShare else (s.entry f e).share := by
  unfold State.armEffect
  cases found : s.entryOfTag f x.outTag with
  | none => exact ⟨rfl, nofun, fun _ _ => rfl, nofun⟩
  | some e =>
    dsimp only
    by_cases started : o = .started
    · subst started
      rw [if_pos rfl]
      obtain ⟨st, begun⟩ := s.beginSplice_stored l r x f e
      rw [begun]
      refine ⟨rfl, fun _ k here => ?_, fun h => absurd rfl h, fun k here => ?_⟩
      · obtain rfl : e = k := Option.some.inj here
        exact State.setLive_live s f (State.live_sorted whole f) e _
      · rw [if_neg (by nofun)]
        exact congrArg MapEntry.share (s.setLive_entry f f e k _)
    · rw [if_neg started]
      by_cases done : o = .done
      · subst done
        rw [if_pos rfl]
        obtain ⟨m, set, live, share⟩ := State.setShare_facts whole f e x.outTag x.newShare
        rw [set]
        refine ⟨rfl, fun h => absurd h started, fun _ k => ?_, fun k here => ?_⟩
        · rw [State.live, State.setMap_map, live]
          rfl
        · obtain rfl : e = k := Option.some.inj here
          rw [State.entry, State.setMap_map, if_pos rfl]
          exact share
      · rw [if_neg done]
        exact ⟨rfl, fun h => absurd h started, fun _ _ => rfl, fun k here => (if_neg done).symm⟩

/-- The record of one target feed with its outcome (R117). -/
def SpliceRecord.decidedAs (x : SpliceRecord) (f : FeedId) (o : SpliceResult) : SpliceRecord := { x with outcomes := [(f, o)] }

/-- The arming of a record with one target feed (R117, R120). -/
theorem State.arm_one {s : State} (whole : s.wf = true) {r : Nat} {x : SpliceRecord} {f : FeedId} (record : s.record r = x)
    (only : x.feeds = oneFeed f) (fresh : x.outcomes = []) (l : LaneId) :
    let o := s.armOutcome x f
    s.arm l r =
      (((s.armEffect l r x f o).setRecord r (x.decidedAs f o)).endMarks (x.decidedAs f o) (if o = .started then [] else [f])).setRecord r
        { x.decidedAs f o with status := if o = .started then .armed else .complete } := by
  dsimp only
  generalize ho : s.armOutcome x f = o
  have armed : s.armFeed l r f = (s.armEffect l r x f o).setRecord r (x.decidedAs f o) := by
    unfold State.armFeed
    dsimp only
    rw [record, ho, fresh]
    rfl
  have wf := (moves_armEffect s l r x f o).wf whole
  obtain ⟨-, -, records⟩ := (State.wf_iff _).mp wf
  have written : (s.armFeed l r f).record r = x.decidedAs f o := by
    rw [armed]
    exact State.setRecord_record _ (Table.sorted_of_wf records) r _
  have outcome : (x.decidedAs f o).outcomeOf f = some o := by simp [SpliceRecord.outcomeOf, SpliceRecord.decidedAs]
  have count : (x.decidedAs f o).startedCount = 0 ↔ o ≠ .started := by
    rw [SpliceRecord.startedCount_eq_zero_iff]
    simp [SpliceRecord.decidedAs, eq_comm]
  have ended : [f].filter (fun g => (x.decidedAs f o).outcomeOf g ≠ some .started) = if o = .started then [] else [f] := by
    simp only [List.filter_cons, List.filter_nil, outcome, ne_eq, Option.some.injEq, decide_not, Bool.not_eq_true', decide_eq_false_iff_not,
      ite_not]
  have status : (if (x.decidedAs f o).startedCount = 0 then RecStatus.complete else .armed) =
      if o = .started then .armed else .complete := by
    by_cases started : o = .started
    · rw [if_neg fun none => count.mp none started, if_pos started]
    · rw [if_pos (count.mpr started), if_neg started]
  unfold State.arm
  dsimp only
  rw [record, only, feedList_oneFeed, List.foldl_cons, List.foldl_nil, written, armed, ended, status]

/-- What stands after the arming of a record with one target feed. -/
theorem State.arm_one_facts {s : State} (whole : s.wf = true) {r : Nat} {x : SpliceRecord} {f : FeedId} (record : s.record r = x)
    (only : x.feeds = oneFeed f) (fresh : x.outcomes = []) (l : LaneId) :
    let o := s.armOutcome x f
    let t := s.arm l r
    t.record r = { x.decidedAs f o with status := if o = .started then .armed else .complete } ∧
      (∀ j, j ≠ r → t.record j = s.record j) ∧ t.ssu.lanes = s.ssu.lanes ∧ t.feeds = s.feeds ∧ t.ports = s.ports ∧ t.tbu = s.tbu ∧
      (o = .started → ∀ e, s.entryOfTag f x.outTag = some e →
        t.live f e = (s.live f e).begun l r x (s.armSource x f e)) ∧
      (o ≠ .started → ∀ e, t.live f e = s.live f e) ∧
      (∀ e, s.entryOfTag f x.outTag = some e → (t.entry f e).share = if o = .done then x.newShare else (s.entry f e).share) ∧
      (x.markOf f ≠ some .held → t.mlt = s.mlt) := by
  have eq := State.arm_one whole record only fresh l
  obtain ⟨frame, begun, kept, share⟩ := State.armEffect_facts whole l r x f (s.armOutcome x f)
  have wf := (moves_armEffect s l r x f (s.armOutcome x f)).wf whole
  dsimp only at eq ⊢
  rw [eq]
  generalize s.armOutcome x f = o at frame begun kept share wf ⊢
  generalize s.armEffect l r x f o = a at frame begun kept share wf ⊢
  have ssu : a.ssu = s.ssu := by rw [frame]
  have feeds : a.feeds = s.feeds := by rw [frame]
  have ports : a.ports = s.ports := by rw [frame]
  have tbu : a.tbu = s.tbu := by rw [frame]
  have mlt : a.mlt = s.mlt := by rw [frame]
  have stored := stored_endMarks (a.setRecord r (x.decidedAs f o)) (x.decidedAs f o) (if o = .started then [] else [f])
  have quiet : x.markOf f ≠ some .held →
      (a.setRecord r (x.decidedAs f o)).endMarks (x.decidedAs f o) (if o = .started then [] else [f]) =
        a.setRecord r (x.decidedAs f o) := fun unheld => by
    have unmarked : (x.decidedAs f o).markOf f ≠ some .held := unheld
    unfold State.endMarks
    split
    · rfl
    · rw [List.filter_cons_of_neg (by simpa using unmarked)]
      rfl
  generalize (a.setRecord r (x.decidedAs f o)).endMarks (x.decidedAs f o) (if o = .started then [] else [f]) = b at stored quiet ⊢
  obtain ⟨-, -, records⟩ := a.wf_iff.mp wf
  have sorted : Table.sorted b.ssu.records = true := by
    obtain ⟨-, -, records'⟩ := (State.wf_iff _).mp ((moves_setRecord a r (x.decidedAs f o)).wf wf)
    rw [stored.ssu]
    exact Table.sorted_of_wf records'
  have maps : b.map = a.map := by
    funext g
    exact stored.map g
  refine ⟨State.setRecord_record b sorted r _, fun j other => ?_, ?_, ?_, ?_, ?_, fun started e here => ?_, fun other e => ?_,
    fun e here => ?_, fun unheld => ?_⟩
  · rw [State.setRecord_record_other b _ (Ne.symm other), State.record, stored.ssu]
    exact (State.setRecord_record_other a _ (Ne.symm other)).trans (by rw [State.record, ssu]; rfl)
  · exact (congrArg Ssu.lanes stored.ssu).trans (show a.ssu.lanes = s.ssu.lanes from congrArg Ssu.lanes ssu)
  · exact stored.feeds.trans feeds
  · exact stored.ports.trans ports
  · exact stored.tbu.trans tbu
  · exact (stored.live f e).trans (begun started e here)
  · exact (stored.live f e).trans (kept other e)
  · exact (congrArg MapEntry.share (by rw [State.entry, State.entry, ← maps]; rfl)).trans (share e here)
  · exact (congrArg State.mlt (quiet unheld)).trans mlt

theorem State.leaveRecord_last {s : State} {r : Nat} (last : (s.record r).goesOn = false) (l : LaneId) :
    s.leaveRecord l r = (s.stopLaneNow l, none) := by
  unfold State.leaveRecord
  exact if_neg (ne_true_of_eq_false last)

/-- The lane of a record with one target feed rests on it, or stops on it without Continue (R120, R128). -/
theorem State.armRecord_one {s : State} (whole : s.wf = true) {r : Nat} {x : SpliceRecord} {f : FeedId} (record : s.record r = x)
    (only : x.feeds = oneFeed f) (fresh : x.outcomes = []) (last : x.goesOn = false) (l : LaneId) :
    s.armRecord l r =
      (if s.armOutcome x f = .started then (s.arm l r).restLane l .armed
        else ((s.arm l r).handReport (.spliceOutcome l r .complete [(f, s.armOutcome x f)])).stopLaneNow l, none) := by
  obtain ⟨written, -⟩ := State.arm_one_facts whole record only fresh l
  generalize s.armOutcome x f = o at written ⊢
  unfold State.armRecord
  dsimp only
  generalize s.arm l r = a at written ⊢
  rw [written]
  dsimp only
  by_cases started : o = .started
  · rw [if_pos started, if_pos rfl, if_pos started]
  · rw [if_neg started, if_neg (by nofun), if_neg started]
    have kept : (a.handReport (.spliceOutcome l r .complete [(f, o)])).record r = a.record r := by
      rw [State.handReport_eq]
      rfl
    exact State.leaveRecord_last (s := a.handReport (.spliceOutcome l r .complete [(f, o)])) (by rw [kept, written]; exact last) l

/-- The arming of a record with one target feed, by a lane that has come to it. -/
theorem State.armRecord_facts {s u : State} {l : LaneId} {r : Nat} {f : FeedId} {x y : SpliceRecord} {st : RecStatus} (whole : u.wf = true)
    (frame : u = { s with due := u.due, ssu := u.ssu }) (record : u.record r = y) (same : y = { x with status := st })
    (others : ∀ j, j ≠ r → u.record j = s.record j) (lane : u.lane l = s.lane l) (only : x.feeds = oneFeed f)
    (fresh : x.outcomes = []) (last : x.goesOn = false) :
    let o := s.armOutcome x f
    ∃ t, u.armRecord l r = (t, none) ∧ (t.record r).outcomes = [(f, o)] ∧ (t.lane l).curRec = (s.lane l).curRec ∧ t.feeds = s.feeds ∧
      t.ports = s.ports ∧ (∀ j, j ≠ r → t.record j = s.record j) ∧
      (o = .started → (t.record r).status = .armed ∧ t.lane l = { s.lane l with state := .armed, linkRun := 0 } ∧
        ∀ e, s.entryOfTag f x.outTag = some e → t.live f e = (s.live f e).begun l r x (s.armSource x f e)) ∧
      (o ≠ .started → (t.record r).status = .complete ∧ t.lane l = { s.lane l with state := .stopped } ∧
        (∀ e, t.live f e = s.live f e) ∧
        (x.markOf f ≠ some .held → t.mlt = (s.handReport (.spliceOutcome l r .complete [(f, o)])).mlt)) ∧
      ∀ e, s.entryOfTag f x.outTag = some e → (t.entry f e).share = if o = .done then x.newShare else (s.entry f e).share := by
  have outcome : u.armOutcome y f = s.armOutcome x f := by rw [frame, same]; rfl
  have tag : u.entryOfTag f y.outTag = s.entryOfTag f x.outTag := by rw [frame, same]; rfl
  have source : u.armSource y f = s.armSource x f := by rw [frame, same]; rfl
  have live : u.live = s.live := by rw [frame]; rfl
  have entry : u.entry = s.entry := by rw [frame]; rfl
  have begun : ∀ v : Live, v.begun l r y = v.begun l r x := fun v => by rw [same]; rfl
  have fields : y.feeds = x.feeds ∧ y.outcomes = x.outcomes ∧ y.goesOn = x.goesOn ∧ y.markOf f = x.markOf f ∧ y.newShare = x.newShare := by
    rw [same]
    exact ⟨rfl, rfl, rfl, rfl, rfl⟩
  obtain ⟨feeds, outcomes, goesOn, mark, share⟩ := fields
  obtain ⟨written, beside, lanes, sameFeeds, ports, tbu, starts, stays, shares, mlt⟩ :=
    State.arm_one_facts whole record (feeds.trans only) (outcomes.trans fresh) l
  have result := State.armRecord_one whole record (feeds.trans only) (outcomes.trans fresh) (goesOn.trans last) l
  simp only [outcome, tag, source, live, entry, begun, mark, share] at written starts stays shares mlt result
  have stamp : (u.arm l r).stamp = s.stamp ∧ (u.arm l r).tbu.cycleNo = s.tbu.cycleNo := by
    rw [State.stamp, tbu, frame]
    exact ⟨rfl, rfl⟩
  have reports : u.mlt = s.mlt := by rw [frame]
  have lane' : (u.arm l r).lane l = s.lane l := by rw [State.lane, lanes]; exact lane
  have feedsKept : (u.arm l r).feeds = s.feeds := by rw [sameFeeds, frame]
  have portsKept : (u.arm l r).ports = s.ports := by rw [ports, frame]
  have kept : ∀ j, j ≠ r → (u.arm l r).record j = s.record j := fun j other => (beside j other).trans (others j other)
  dsimp only
  generalize s.armOutcome x f = o at written starts stays shares mlt result ⊢
  generalize u.arm l r = a at written starts stays shares mlt result stamp lane' feedsKept portsKept kept
  by_cases started : o = .started
  · rw [if_pos started] at result
    rw [if_pos started] at written
    refine ⟨_, result, ?_⟩
    simp only [State.restLane, State.setLane_record, State.setLane_lane, lane']
    refine ⟨congrArg SpliceRecord.outcomes written, trivial, feedsKept, portsKept, kept,
      fun _ => ⟨congrArg SpliceRecord.status written, trivial, fun e here => starts started e here⟩, fun h => absurd started h, shares⟩
  · rw [if_neg started] at result
    rw [if_neg started] at written
    refine ⟨_, result, ?_⟩
    have handed := a.handReport_offered (.spliceOutcome l r .complete [(f, o)])
    generalize a.handReport (.spliceOutcome l r .complete [(f, o)]) = b at handed ⊢
    have record : ∀ j, b.record j = a.record j := fun j => by rw [handed]; rfl
    have laneKept : b.lane l = s.lane l := by rw [handed]; exact lane'
    obtain ⟨sameStamp, sameCycle⟩ := stamp
    simp only [State.stopLaneNow, State.setLane_record, State.setLane_lane, laneKept, record]
    refine ⟨congrArg SpliceRecord.outcomes written, trivial, ?_, ?_, kept, fun h => absurd h started,
      fun other => ⟨congrArg SpliceRecord.status written, trivial, fun e => ?_, fun unheld => ?_⟩, ?_⟩
    · rw [State.setLane_feeds, handed]; exact feedsKept
    · rw [State.setLane_ports, handed]; exact portsKept
    · rw [handed]; exact stays other e
    · rw [State.setLane_mlt, handed, State.handReport_offered, sameStamp, sameCycle, mlt unheld, reports]
    · rw [handed]; exact shares

/-- A lane that waits, or has given notice, arms its record at distance 0 (R114). -/
theorem exec_arming {s : State} {l : LaneId} {r : Nat} {x : SpliceRecord} {f : FeedId} (whole : s.wf = true)
    (owed : s.due.lanes.getLsbD l.val = true) (here : (s.lane l).curRec = r) (record : s.record r = x)
    (comes : (s.lane l).state = .noticed ∨
      ((s.lane l).state = .waiting ∧ x.carries = .action ∧ x.status ≠ .noticed ∧ x.status ≠ .armed ∧ x.marks = []))
    (now : x.dueCycle = s.tbu.cycleNo) (only : x.feeds = oneFeed f) (fresh : x.outcomes = []) (last : x.goesOn = false) :
    ∃ (u : State) (st : RecStatus), exec (.arming l) s = .next (u.armRecord l r).1 ∧ u.wf = true ∧ u = { s with due := u.due, ssu := u.ssu } ∧
      u.record r = { x with status := st } ∧ (∀ j, j ≠ r → u.record j = s.record j) ∧ u.lane l = s.lane l := by
  have distance : s.distance x.dueCycle = 0 := by rw [State.distance, now]; simp
  obtain ⟨n, hn⟩ : ∃ n : State, n = { s with due := { s.due with lanes := s.due.lanes &&& ~~~ BitVec.twoPow 4 l.val } } := ⟨_, rfl⟩
  have part : s.lanePart l = n.evaluateLane l := by rw [State.lanePart, if_pos owed, ← hn]
  have lane : n.lane l = s.lane l := by rw [hn]; rfl
  have same : n.record = s.record := by rw [hn]; rfl
  have wf : n.wf = true := by rw [hn]; exact whole
  have met : s.laneWaits l = true ∨ (s.lane l).state = .noticed := by
    obtain noticed | ⟨waiting, action, fresh, unarmed, -⟩ := comes
    · exact .inr noticed
    · refine .inl ?_
      rw [State.laneWaits, here, record]
      simp [waiting, action, SpliceRecord.inUse, fresh, unarmed]
  have due : s.armingDue l = true := by
    rw [State.armingDue, State.laneDistance, here, record, distance, owed]
    simpa using met
  have runs : exec (.arming l) s = .next (n.evaluateLane l) := by
    rw [← part]
    exact congrArg Host.Outcome.next (if_pos due)
  have near : n.distance x.dueCycle = 0 := by rw [hn]; exact distance
  obtain noticed | ⟨waiting, action, fresh', unarmed, unmarked⟩ := comes
  · refine ⟨n, x.status, ?_, wf, by rw [hn], by rw [same, record], fun j _ => by rw [same], lane⟩
    have settles := State.armRecord_one wf (by rw [same]; exact record) only fresh last l
    rw [runs, State.evaluateLane]
    simp only [lane, noticed, here, same, record, near]
    rw [if_neg (by decide), if_pos trivial, settles]
    rfl
  · have free : x.inUse = false := by simp [SpliceRecord.inUse, fresh', unarmed]
    obtain ⟨-, -, records⟩ := n.wf_iff.mp wf
    obtain ⟨u, hu⟩ : ∃ u : State,
        u = (n.setLane l { n.lane l with curRec := r }).setRecord r { x with status := .pending, outcomes := [], marks := [] } := ⟨_, rfl⟩
    have blank : ({ x with status := .pending, outcomes := [], marks := [] } : SpliceRecord) = { x with status := .pending } := by
      rw [← fresh, ← unmarked]
    have written : u.record r = { x with status := .pending } := by
      rw [← blank, hu]
      exact State.setRecord_record _ (Table.sorted_of_wf records) r _
    have uwf : u.wf = true := by
      rw [hu]
      exact (moves_setRecord _ _ _).wf ((moves_setLane _ _ _).wf wf)
    refine ⟨u, .pending, ?_, uwf, by rw [hu, hn]; rfl, written, fun j other => ?_, ?_⟩
    · have settles := State.armRecord_one uwf written only fresh last l
      have reached : n.reachRecord l r = u.armRecord l r := by
        have near' : (n.setLane l { n.lane l with curRec := r }).distance x.dueCycle = 0 := near
        simp only [State.reachRecord, State.setLane_record, same, record, action, if_neg (ne_true_of_eq_false free),
          State.evaluateRecord, near']
        rw [if_neg (by decide), if_pos trivial, hu, ← action]
      rw [runs, State.evaluateLane]
      simp only [lane, waiting, here]
      rw [settles] at reached ⊢
      rw [State.reach_of_rests reached]
    · rw [hu, State.setRecord_record_other _ _ (Ne.symm other), State.setLane_record, same]
    · rw [hu, State.setRecord_lane, State.setLane_lane, lane, ← here]

/-- Settles O31: the first check that applies decides, and what it decides is done. -/
theorem armingDecidesOutcome : Obligations.ArmingDecidesOutcome := by
  unfold Obligations.ArmingDecidesOutcome
  intro s l r f whole owed here x comes now only fresh last u outcome o
  have decided : s.armOutcome x f = o := by
    by_cases running : (s.feed f).state = .running
    · have checks : o = match s.entryOfTag f x.outTag with
        | none => .noEntry
        | some e => outcome e := if_neg (not_not.mpr running)
      rw [checks, State.armOutcome, if_pos (show s.feedRunning f = true from decide_eq_true running)]
      cases s.entryOfTag f x.outTag with
      | none => rfl
      | some e =>
        exact if_congr (by simp [Live.busy]) rfl (if_congr Iff.rfl rfl (if_congr (by simp [State.armSource]) rfl
          (if_congr (not_congr decide_eq_true_iff) rfl rfl)))
    · have abandons : o = .abandoned := if_pos running
      rw [abandons, State.armOutcome, if_neg (by simp [State.feedRunning, running])]
  obtain ⟨n, st, runs, wf, frame, record, others, lane⟩ := exec_arming whole owed here rfl comes now only fresh last
  obtain ⟨t, arms, outcomes, curRec, feeds, ports, records, starts, ends, shares⟩ :=
    State.armRecord_facts wf frame record rfl others lane only fresh last
  rw [decided] at outcomes starts ends shares
  rw [arms] at runs
  exact ⟨t, runs, outcomes, curRec.trans here, feeds, ports, records, starts, ends, shares⟩

end Sys2Proof.Machine
end
